-- ==== Sys2Proof/Word.lean ====
section
/-! DEFINITION. The word types of the machine (spec/00_scope.md R8, R10): 32-bit registers, addresses and
instructions, 8-bit bytes, and the 5-bit register index as a bounded number. -/

namespace Sys2Proof

/-- A byte of memory. -/
abbrev Byte := BitVec 8

/-- XLEN = 32 (spec/00_scope.md R8): a general register, HI, LO, a CP0 register, an address, an instruction word. -/
abbrev Word := BitVec 32

/-- The exact product of two words (spec/40_alu.md R326, R327). -/
abbrev Dword := BitVec 64

/-- A general register number r0 to r31 (spec/10_state.md R30). -/
abbrev Reg := Fin 32

end Sys2Proof
end

