-- ==== Sys2Proof/Config.lean ====
section
/-! DEFINITION. What is fixed for one run (the parameters of spec/00_scope.md R8, a plain record that State carries and
no step changes) and the free values: constants with no body, so that nothing can be proved of their values.
The functions that read these records stand in Machine/Ops.lean and Machine/Mapper.lean. -/

namespace Sys2Proof

/-- ENDIAN (spec/00_scope.md R8, spec/20_memory.md R112, R118). -/
inductive Endian where
  | big
  | little
  deriving DecidableEq, Repr, Inhabited

/-- The access mode of an exception record and of a memory access (spec/10_state.md R44, R46). -/
inductive AccessMode where
  | fetch
  | load
  | store
  | any
  deriving DecidableEq, Repr, Inhabited

/-- Cache geometry of one instance (spec/00_scope.md R8, R9): bytes per line, sets, lines per set. -/
structure Geometry where
  blockSize  : Nat
  blockCount : Nat
  ways       : Nat
  deriving DecidableEq, Repr, Inhabited

/-- What the platform assigns to a physical range (spec/20_memory.md R115, R116). -/
inductive RegionKind where
  /-- Memory: a fetch returns what was stored. -/
  | ram
  /-- A device: a fetch returns a draw, and the effect of a store is outside the spec. -/
  | device
  deriving DecidableEq, Repr, Inhabited

/-- One range of the platform memory map `Mapped` (spec/20_memory.md R115). -/
structure Region where
  base : Nat
  size : Nat
  kind : RegionKind
  deriving DecidableEq, Repr, Inhabited

/-- The answers of `Translate` (spec/20_memory.md R106). -/
inductive Translation where
  | ok (pa : Word) (cacheable : Bool)
  | tlbFault (refill : Bool)
  | modFault
  deriving DecidableEq, Repr, Inhabited

/-- What a rule of the translation table says of the addresses it covers. -/
inductive TransAct where
  /-- `pa = va + delta`, any delta; a store through a rule with `writable = false` is a ModFault. -/
  | map (delta : Word) (cacheable writable : Bool)
  /-- A TLB miss or invalid entry. -/
  | miss (refill : Bool)
  deriving DecidableEq, Repr, Inhabited

/-- One rule of the table by which a run gives the parameter `Translate` as plain data: the addresses `first` to
`last`, for the access modes whose flag is set. -/
structure TransRule where
  first   : Word
  last    : Word
  onFetch : Bool
  onLoad  : Bool
  onStore : Bool
  act     : TransAct
  deriving DecidableEq, Repr, Inhabited

/-- The parameters of a run (spec/00_scope.md R8). A run takes them as an argument: they are the field `cfg` of State,
which no step changes; `Config.params` is the choice that `State.reset` makes (log entry 1). -/
structure Params where
  endian        : Endian
  resetPc       : Word
  linkOffset    : Word
  prid          : Word
  icachePresent : Bool
  dcachePresent : Bool
  icacheGeom    : Geometry
  dcacheGeom    : Geometry
  /-- `Translate` (R106): the first rule that covers the address and mode; where none does, `Config.freeTranslate`. -/
  translate     : List TransRule
  /-- `Mapped` (R115): true of the addresses of these ranges. -/
  regions       : List Region
  /-- HALT_PC (R8, spec/70_reset_and_hazards.md R570); `none` is a run given no such address. -/
  haltPc        : Option Word
  deriving DecidableEq, Repr, Inhabited

/-- A bus master identity (spec/00_scope.md R8, spec/20_memory.md R173): the two caches' identities differ from each
other and from every external master's. -/
inductive Client where
  | icache
  | dcache
  | external (id : Nat)
  deriving DecidableEq, Repr, Inhabited

/-- What an external bus master may do at its place in the cycle (spec/20_memory.md R173): the calls of the Mapper and
the arbiter, the access mode its own choice where the call has one (R110, R113). -/
inductive MasterAction where
  | acquire (id : Nat)
  | request (id : Nat) (addr : Word) (mode : AccessMode)
  | ready (id : Nat) (addr : Word) (mode : AccessMode)
  | fetchWord (id : Nat) (addr : Word) (mode : AccessMode)
  | storeWord (id : Nat) (addr : Word) (data : Word)
  | release (id : Nat)
  deriving DecidableEq, Repr, Inhabited

/-- What the environment gives one cycle: the interrupt pins Int[5:0] (spec/10_state.md R70) and the actions of the
external bus masters, in the order they step (spec/20_memory.md R174). -/
structure CycleInput where
  pins    : BitVec 6
  masters : List MasterAction
  deriving DecidableEq, Repr, Inhabited

/-- The parameters `State.reset` is given: the common environment of spec/95_test_vectors.md, and for what that leaves
open the choices of log entry 1 (DESIGN CHOICE). -/
def Config.params : Params where
  endian        := .big
  resetPc       := 0xBFC00000#32
  linkOffset    := 8#32
  prid          := 0#32
  icachePresent := true
  dcachePresent := true
  icacheGeom    := { blockSize := 16, blockCount := 4, ways := 2 }
  dcacheGeom    := { blockSize := 16, blockCount := 4, ways := 2 }
  translate     := [{ first := 0#32, last := 0xFFFFFFFF#32, onFetch := true, onLoad := true, onStore := true,
                      act := .map 0#32 false true }]
  regions       := [{ base := 0x00000000, size := 0x10000, kind := .ram },
                    { base := 0x1FC00000, size := 0x1000, kind := .ram }]
  haltPc        := none

/-- The most cycles one `step` runs while it waits for an instruction to leave WB (log entry 2, DESIGN CHOICE). -/
def Config.stepCycles : Nat := 64

/-- The value named for r1 to r31, HI and LO at reset (log entry 3, DESIGN CHOICE): the spec gives none and forbids
zero (spec/10_state.md R36). -/
def Config.unspecifiedWord : Word := 0x00000100#32

/-- A `draw` of a word (spec/00_scope.md R12): the n-th. Log entry 4. -/
opaque Config.freeWord : Nat → Word

/-- The answer of the n-th drawn `ready` poll (spec/20_memory.md R113). Log entry 5. -/
opaque Config.freeReady : Nat → Bool

/-- The environment's input of a cycle that no tape gives (spec/10_state.md R70, spec/20_memory.md R173). Log entry 5. -/
opaque Config.freeInput : Nat → CycleInput

/-- `Translate` where the run's table says nothing (spec/20_memory.md R106). Log entry 6. -/
opaque Config.freeTranslate : Word → AccessMode → Translation

end Sys2Proof
end

