-- ==== Sys2Proof/Syntax.lean ====
section
/-! DEFINITION. The instructions: one constructor per row of spec/opcode_table.json, with the row's fields as arguments.
Rule numbers are those of spec/40_alu.md, 41_control_transfer.md, 42_load_store.md and 43_system.md. -/

namespace Sys2Proof

/-- An instruction. Register numbers are bounded by their type, immediates are the encoded bits; a shift amount, a
cache operation, a CP0 register number and a coprocessor register number are numbers that `Instr.wellFormed` bounds. -/
inductive Instr where
  /-- SLL rd, rt, shamt (R320). -/
  | sll (rt rd : Reg) (shamt : Nat)
  /-- SRL rd, rt, shamt (R321). -/
  | srl (rt rd : Reg) (shamt : Nat)
  /-- SRA rd, rt, shamt (R322). -/
  | sra (rt rd : Reg) (shamt : Nat)
  /-- SLLV rd, rt, rs (R323). -/
  | sllv (rs rt rd : Reg)
  /-- SRLV rd, rt, rs (R324). -/
  | srlv (rs rt rd : Reg)
  /-- SRAV rd, rt, rs (R325). -/
  | srav (rs rt rd : Reg)
  /-- JR rs (R366). -/
  | jr (rs : Reg)
  /-- JALR rd, rs (R367). -/
  | jalr (rs rd : Reg)
  /-- SYSCALL code (R422). -/
  | syscall (code : BitVec 20)
  /-- BREAK code (R423). -/
  | brk (code : BitVec 20)
  /-- MFHI rd (R330). -/
  | mfhi (rd : Reg)
  /-- MTHI rs (R332). -/
  | mthi (rs : Reg)
  /-- MFLO rd (R331). -/
  | mflo (rd : Reg)
  /-- MTLO rs (R333). -/
  | mtlo (rs : Reg)
  /-- MULT rs, rt (R326). -/
  | mult (rs rt : Reg)
  /-- MULTU rs, rt (R327). -/
  | multu (rs rt : Reg)
  /-- DIV rs, rt (R328). -/
  | div (rs rt : Reg)
  /-- DIVU rs, rt (R329). -/
  | divu (rs rt : Reg)
  /-- ADD rd, rs, rt (R302). -/
  | add (rs rt rd : Reg)
  /-- ADDU rd, rs, rt (R303). -/
  | addu (rs rt rd : Reg)
  /-- SUB rd, rs, rt (R304). -/
  | sub (rs rt rd : Reg)
  /-- SUBU rd, rs, rt (R305). -/
  | subu (rs rt rd : Reg)
  /-- AND rd, rs, rt (R312). -/
  | and (rs rt rd : Reg)
  /-- OR rd, rs, rt (R313). -/
  | or (rs rt rd : Reg)
  /-- XOR rd, rs, rt (R314). -/
  | xor (rs rt rd : Reg)
  /-- NOR rd, rs, rt (R315). -/
  | nor (rs rt rd : Reg)
  /-- SLT rd, rs, rt (R308). -/
  | slt (rs rt rd : Reg)
  /-- SLTU rd, rs, rt (R309). -/
  | sltu (rs rt rd : Reg)
  /-- BLTZ rs, offset (R360). -/
  | bltz (rs : Reg) (offset : BitVec 16)
  /-- BGEZ rs, offset (R361). -/
  | bgez (rs : Reg) (offset : BitVec 16)
  /-- BLTZAL rs, offset (R362). -/
  | bltzal (rs : Reg) (offset : BitVec 16)
  /-- BGEZAL rs, offset (R363). -/
  | bgezal (rs : Reg) (offset : BitVec 16)
  /-- J target (R364). -/
  | j (target : BitVec 26)
  /-- JAL target (R365). -/
  | jal (target : BitVec 26)
  /-- BEQ rs, rt, offset (R356). -/
  | beq (rs rt : Reg) (offset : BitVec 16)
  /-- BNE rs, rt, offset (R357). -/
  | bne (rs rt : Reg) (offset : BitVec 16)
  /-- BLEZ rs, offset (R358). -/
  | blez (rs : Reg) (offset : BitVec 16)
  /-- BGTZ rs, offset (R359). -/
  | bgtz (rs : Reg) (offset : BitVec 16)
  /-- ADDI rt, rs, imm (R306). -/
  | addi (rs rt : Reg) (imm : BitVec 16)
  /-- ADDIU rt, rs, imm (R307). -/
  | addiu (rs rt : Reg) (imm : BitVec 16)
  /-- SLTI rt, rs, imm (R310). -/
  | slti (rs rt : Reg) (imm : BitVec 16)
  /-- SLTIU rt, rs, imm (R311). -/
  | sltiu (rs rt : Reg) (imm : BitVec 16)
  /-- ANDI rt, rs, imm (R316). -/
  | andi (rs rt : Reg) (imm : BitVec 16)
  /-- ORI rt, rs, imm (R317). -/
  | ori (rs rt : Reg) (imm : BitVec 16)
  /-- XORI rt, rs, imm (R318). -/
  | xori (rs rt : Reg) (imm : BitVec 16)
  /-- LUI rt, imm (R319). -/
  | lui (rt : Reg) (imm : BitVec 16)
  /-- LB rt, offset(base) (R383). -/
  | lb (base rt : Reg) (offset : BitVec 16)
  /-- LH rt, offset(base) (R385). -/
  | lh (base rt : Reg) (offset : BitVec 16)
  /-- LWL rt, offset(base) (R388). -/
  | lwl (base rt : Reg) (offset : BitVec 16)
  /-- LW rt, offset(base) (R387). -/
  | lw (base rt : Reg) (offset : BitVec 16)
  /-- LBU rt, offset(base) (R384). -/
  | lbu (base rt : Reg) (offset : BitVec 16)
  /-- LHU rt, offset(base) (R386). -/
  | lhu (base rt : Reg) (offset : BitVec 16)
  /-- LWR rt, offset(base) (R389). -/
  | lwr (base rt : Reg) (offset : BitVec 16)
  /-- SB rt, offset(base) (R391). -/
  | sb (base rt : Reg) (offset : BitVec 16)
  /-- SH rt, offset(base) (R392). -/
  | sh (base rt : Reg) (offset : BitVec 16)
  /-- SWL rt, offset(base) (R394). -/
  | swl (base rt : Reg) (offset : BitVec 16)
  /-- SW rt, offset(base) (R393). -/
  | sw (base rt : Reg) (offset : BitVec 16)
  /-- SWR rt, offset(base) (R395). -/
  | swr (base rt : Reg) (offset : BitVec 16)
  /-- CACHE op, offset(base) (R397); `op` is the 5-bit operation field of spec/20_memory.md R160. -/
  | cache (base : Reg) (op : Nat) (offset : BitVec 16)
  /-- MFC0 rt, rd (R425); `rd` is the CP0 register number. -/
  | mfc0 (rt : Reg) (rd : Nat)
  /-- MTC0 rt, rd (R426); `rd` is the CP0 register number. -/
  | mtc0 (rt : Reg) (rd : Nat)
  /-- TLBR (R427). -/
  | tlbr
  /-- TLBWI (R427). -/
  | tlbwi
  /-- TLBWR (R427). -/
  | tlbwr
  /-- TLBP (R427). -/
  | tlbp
  /-- RFE (R424). -/
  | rfe
  /-- COP1, every form (R428). -/
  | cop1 (sub : BitVec 26)
  /-- COP2, every form (R428). -/
  | cop2 (sub : BitVec 26)
  /-- COP3, every form (R428). -/
  | cop3 (sub : BitVec 26)
  /-- LWC1 rt, offset(base) (R428); `rt` is the coprocessor register number. -/
  | lwc1 (base : Reg) (rt : Nat) (offset : BitVec 16)
  /-- LWC2 rt, offset(base) (R428); `rt` is the coprocessor register number. -/
  | lwc2 (base : Reg) (rt : Nat) (offset : BitVec 16)
  /-- LWC3 rt, offset(base) (R428); `rt` is the coprocessor register number. -/
  | lwc3 (base : Reg) (rt : Nat) (offset : BitVec 16)
  /-- SWC1 rt, offset(base) (R428); `rt` is the coprocessor register number. -/
  | swc1 (base : Reg) (rt : Nat) (offset : BitVec 16)
  /-- SWC2 rt, offset(base) (R428); `rt` is the coprocessor register number. -/
  | swc2 (base : Reg) (rt : Nat) (offset : BitVec 16)
  /-- SWC3 rt, offset(base) (R428); `rt` is the coprocessor register number. -/
  | swc3 (base : Reg) (rt : Nat) (offset : BitVec 16)
  deriving DecidableEq, Repr

end Sys2Proof
end

