-- ==== Sys2Proof/WellFormed.lean ====
section
/-! DEFINITION. Which instructions have an encoding (the numbers an argument type does not bound), and which parameters
give a run (spec/00_scope.md R9). -/

namespace Sys2Proof

/-- A number that a 5-bit instruction field holds (spec/30_encoding.md R201, R202, R204). -/
def fits5 (n : Nat) : Bool := n < 32

/-- The instruction's shift amount, cache operation, CP0 register number or coprocessor register number fits its
5-bit field; every other field fits by its type. -/
def Instr.wellFormed : Instr → Bool
  | .sll _ _ shamt | .srl _ _ shamt | .sra _ _ shamt => fits5 shamt
  | .cache _ op _ => fits5 op
  | .mfc0 _ rd | .mtc0 _ rd => fits5 rd
  | .lwc1 _ rt _ | .lwc2 _ rt _ | .lwc3 _ rt _ | .swc1 _ rt _ | .swc2 _ rt _ | .swc3 _ rt _ => fits5 rt
  | .sllv .. | .srlv .. | .srav .. | .jr .. | .jalr .. | .syscall .. | .brk .. | .mfhi .. | .mthi .. | .mflo .. | .mtlo ..
  | .mult .. | .multu .. | .div .. | .divu .. | .add .. | .addu .. | .sub .. | .subu .. | .and .. | .or .. | .xor .. | .nor ..
  | .slt .. | .sltu .. | .bltz .. | .bgez .. | .bltzal .. | .bgezal .. | .j .. | .jal .. | .beq .. | .bne .. | .blez .. | .bgtz ..
  | .addi .. | .addiu .. | .slti .. | .sltiu .. | .andi .. | .ori .. | .xori .. | .lui .. | .lb .. | .lh .. | .lwl .. | .lw ..
  | .lbu .. | .lhu .. | .lwr .. | .sb .. | .sh .. | .swl .. | .sw .. | .swr .. | .tlbr | .tlbwi | .tlbwr | .tlbp | .rfe
  | .cop1 .. | .cop2 .. | .cop3 .. => true

/-- A power of two (2 to the 0 is one). -/
def isPowerOfTwo (n : Nat) : Bool := n == 2 ^ n.log2

/-- R9: block_size a power of two of at least 4, block_count a power of two of at least 1, ways at least 1. -/
def Geometry.wellFormed (g : Geometry) : Bool :=
  isPowerOfTwo g.blockSize && decide (4 ≤ g.blockSize) && isPowerOfTwo g.blockCount && decide (1 ≤ g.ways)

/-- R9: only validated geometries have a run. A cache that is absent (R61) has no geometry to validate. -/
def Params.wellFormed (p : Params) : Bool :=
  (!p.icachePresent || p.icacheGeom.wellFormed) && (!p.dcachePresent || p.dcacheGeom.wellFormed)

end Sys2Proof
end

