-- ==== Sys2Proof/Decode.lean ====
section
/-! DEFINITION. The decoder (total on every word and on every list of bytes, rejecting by name) and, after it, the
encoder, both from the encoding tables of spec/30_encoding.md (R200 to R218). -/

namespace Sys2Proof

/-- Why a word is no instruction (spec/30_encoding.md R218): which table marks it reserved, or too few bytes. -/
inductive Reserved where
  /-- A primary opcode marked rsvd (R213), LWC0 and SWC0 among them (R429). -/
  | opcode
  /-- A SPECIAL function marked rsvd (R214). -/
  | funct
  /-- A REGIMM rt value marked rsvd (R215). -/
  | regimm
  /-- A COP0 word that R216 does not name (R430). -/
  | cop0
  /-- Fewer than four bytes: no instruction word (R200). -/
  | truncated
  deriving DecidableEq, Repr

/-- instr[31:26] (R201 to R204). -/
def opOf (w : Word) : BitVec 6 := w.extractLsb' 26 6

/-- instr[25:21]. -/
def rsBits (w : Word) : BitVec 5 := w.extractLsb' 21 5

/-- instr[20:16]. -/
def rtBits (w : Word) : BitVec 5 := w.extractLsb' 16 5

/-- instr[15:11]. -/
def rdBits (w : Word) : BitVec 5 := w.extractLsb' 11 5

/-- instr[10:6], the shift amount. -/
def shamtBits (w : Word) : BitVec 5 := w.extractLsb' 6 5

/-- instr[5:0]. -/
def functOf (w : Word) : BitVec 6 := w.extractLsb' 0 6

/-- instr[15:0], the immediate or offset field (R202). -/
def immOf (w : Word) : BitVec 16 := w.extractLsb' 0 16

/-- instr[25:0], the J-format target (R203) and a COPz word's sub-operation bits (R204). -/
def targetOf (w : Word) : BitVec 26 := w.extractLsb' 0 26

/-- instr[25:6], the code field of SYSCALL and BREAK (R201). -/
def codeOf (w : Word) : BitVec 20 := w.extractLsb' 6 20

/-- A register number from its field (R208). -/
def regOf (b : BitVec 5) : Reg := b.toFin

/-- Opcode 0, by funct (R214). -/
def decodeSpecial (w : Word) : Except Reserved Instr :=
  let rs := regOf (rsBits w); let rt := regOf (rtBits w); let rd := regOf (rdBits w)
  match functOf w with
  | 0x00#6 => .ok (.sll rt rd (shamtBits w).toNat)
  | 0x02#6 => .ok (.srl rt rd (shamtBits w).toNat)
  | 0x03#6 => .ok (.sra rt rd (shamtBits w).toNat)
  | 0x04#6 => .ok (.sllv rs rt rd)
  | 0x06#6 => .ok (.srlv rs rt rd)
  | 0x07#6 => .ok (.srav rs rt rd)
  | 0x08#6 => .ok (.jr rs)
  | 0x09#6 => .ok (.jalr rs rd)
  | 0x0C#6 => .ok (.syscall (codeOf w))
  | 0x0D#6 => .ok (.brk (codeOf w))
  | 0x10#6 => .ok (.mfhi rd)
  | 0x11#6 => .ok (.mthi rs)
  | 0x12#6 => .ok (.mflo rd)
  | 0x13#6 => .ok (.mtlo rs)
  | 0x18#6 => .ok (.mult rs rt)
  | 0x19#6 => .ok (.multu rs rt)
  | 0x1A#6 => .ok (.div rs rt)
  | 0x1B#6 => .ok (.divu rs rt)
  | 0x20#6 => .ok (.add rs rt rd)
  | 0x21#6 => .ok (.addu rs rt rd)
  | 0x22#6 => .ok (.sub rs rt rd)
  | 0x23#6 => .ok (.subu rs rt rd)
  | 0x24#6 => .ok (.and rs rt rd)
  | 0x25#6 => .ok (.or rs rt rd)
  | 0x26#6 => .ok (.xor rs rt rd)
  | 0x27#6 => .ok (.nor rs rt rd)
  | 0x2A#6 => .ok (.slt rs rt rd)
  | 0x2B#6 => .ok (.sltu rs rt rd)
  | _ => .error .funct

/-- Opcode 1, by the rt field (R215). -/
def decodeRegimm (w : Word) : Except Reserved Instr :=
  let rs := regOf (rsBits w)
  match rtBits w with
  | 0x00#5 => .ok (.bltz rs (immOf w))
  | 0x01#5 => .ok (.bgez rs (immOf w))
  | 0x10#5 => .ok (.bltzal rs (immOf w))
  | 0x11#5 => .ok (.bgezal rs (immOf w))
  | _ => .error .regimm

/-- COP0 words with the CO bit instr[25] set, by funct (R216). -/
def decodeCop0Op (w : Word) : Except Reserved Instr :=
  match functOf w with
  | 0x01#6 => .ok .tlbr
  | 0x02#6 => .ok .tlbwi
  | 0x06#6 => .ok .tlbwr
  | 0x08#6 => .ok .tlbp
  | 0x10#6 => .ok .rfe
  | _ => .error .cop0

/-- Opcode 0x10, by rs and funct (R216). -/
def decodeCop0 (w : Word) : Except Reserved Instr :=
  if (rsBits w).getLsbD 4 then decodeCop0Op w
  else match rsBits w with
    | 0x00#5 => .ok (.mfc0 (regOf (rtBits w)) (rdBits w).toNat)
    | 0x04#5 => .ok (.mtc0 (regOf (rtBits w)) (rdBits w).toNat)
    | _ => .error .cop0

/-- The decoder, by primary opcode (R213). -/
def decode (w : Word) : Except Reserved Instr :=
  let rs := regOf (rsBits w); let rt := regOf (rtBits w); let imm := immOf w
  match opOf w with
  | 0x00#6 => decodeSpecial w
  | 0x01#6 => decodeRegimm w
  | 0x02#6 => .ok (.j (targetOf w))
  | 0x03#6 => .ok (.jal (targetOf w))
  | 0x04#6 => .ok (.beq rs rt imm)
  | 0x05#6 => .ok (.bne rs rt imm)
  | 0x06#6 => .ok (.blez rs imm)
  | 0x07#6 => .ok (.bgtz rs imm)
  | 0x08#6 => .ok (.addi rs rt imm)
  | 0x09#6 => .ok (.addiu rs rt imm)
  | 0x0A#6 => .ok (.slti rs rt imm)
  | 0x0B#6 => .ok (.sltiu rs rt imm)
  | 0x0C#6 => .ok (.andi rs rt imm)
  | 0x0D#6 => .ok (.ori rs rt imm)
  | 0x0E#6 => .ok (.xori rs rt imm)
  | 0x0F#6 => .ok (.lui rt imm)
  | 0x20#6 => .ok (.lb rs rt imm)
  | 0x21#6 => .ok (.lh rs rt imm)
  | 0x22#6 => .ok (.lwl rs rt imm)
  | 0x23#6 => .ok (.lw rs rt imm)
  | 0x24#6 => .ok (.lbu rs rt imm)
  | 0x25#6 => .ok (.lhu rs rt imm)
  | 0x26#6 => .ok (.lwr rs rt imm)
  | 0x28#6 => .ok (.sb rs rt imm)
  | 0x29#6 => .ok (.sh rs rt imm)
  | 0x2A#6 => .ok (.swl rs rt imm)
  | 0x2B#6 => .ok (.sw rs rt imm)
  | 0x2E#6 => .ok (.swr rs rt imm)
  | 0x2F#6 => .ok (.cache rs (rtBits w).toNat imm)
  | 0x10#6 => decodeCop0 w
  | 0x11#6 => .ok (.cop1 (targetOf w))
  | 0x12#6 => .ok (.cop2 (targetOf w))
  | 0x13#6 => .ok (.cop3 (targetOf w))
  | 0x31#6 => .ok (.lwc1 rs (rtBits w).toNat imm)
  | 0x32#6 => .ok (.lwc2 rs (rtBits w).toNat imm)
  | 0x33#6 => .ok (.lwc3 rs (rtBits w).toNat imm)
  | 0x39#6 => .ok (.swc1 rs (rtBits w).toNat imm)
  | 0x3A#6 => .ok (.swc2 rs (rtBits w).toNat imm)
  | 0x3B#6 => .ok (.swc3 rs (rtBits w).toNat imm)
  | _ => .error .opcode

/-- An instruction word from its four bytes, the first at the lowest address (spec/20_memory.md R112). -/
def wordOfBytes (e : Endian) (b0 b1 b2 b3 : Byte) : Word :=
  match e with
  | .big => b0 ++ b1 ++ b2 ++ b3
  | .little => b3 ++ b2 ++ b1 ++ b0

/-- The k-th byte of a word's value, byte 0 the least significant. -/
def byteOf (w : Word) (k : Nat) : Byte := w.extractLsb' (8 * k) 8

/-- The four bytes of a word as memory holds them, the lowest address first (spec/20_memory.md R112). -/
def bytesOfWord (e : Endian) (w : Word) : List Byte :=
  match e with
  | .big => [byteOf w 3, byteOf w 2, byteOf w 1, byteOf w 0]
  | .little => [byteOf w 0, byteOf w 1, byteOf w 2, byteOf w 3]

/-- The decoder on any bytes: it consumes exactly four (R200, R220) or rejects by name. -/
def decodeBytes (e : Endian) : List Byte → Except Reserved (Instr × List Byte)
  | b0 :: b1 :: b2 :: b3 :: rest =>
    match decode (wordOfBytes e b0 b1 b2 b3) with
    | .ok i => .ok (i, rest)
    | .error r => .error r
  | _ => .error .truncated

/-- The instruction the decoder reads from an opcode-table word. Every row has 32 bits (R200), so the word is the
whole instruction; it is laid out in the byte order of `Config.params` and read back by `decodeBytes`. -/
def decodeTableWord (nbits w : Nat) : Option Instr :=
  if nbits ≤ 32 then
    match decodeBytes Config.params.endian (bytesOfWord Config.params.endian (BitVec.ofNat 32 w)) with
    | .ok (i, _) => some i
    | .error _ => none
  else none

/-! The encoder. Fields the decoder ignores (R211) are written as zeros. -/

/-- R-format with opcode SPECIAL (R201). -/
def rWord (rs rt rd shamt : BitVec 5) (funct : BitVec 6) : Word := 0x00#6 ++ rs ++ rt ++ rd ++ shamt ++ funct

/-- I-format (R202). -/
def iWord (op : BitVec 6) (rs rt : BitVec 5) (imm : BitVec 16) : Word := op ++ rs ++ rt ++ imm

/-- J-format (R203), also a COPz word with its sub-operation bits (R204). -/
def jWord (op : BitVec 6) (target : BitVec 26) : Word := op ++ target

/-- SYSCALL and BREAK: a 20-bit code between opcode and funct (R201). -/
def codeWord (code : BitVec 20) (funct : BitVec 6) : Word := 0x00#6 ++ code ++ funct

/-- COP0 register move (R204): rs = 0 MFC0, rs = 4 MTC0. -/
def cop0Word (sub rt rd : BitVec 5) : Word := 0x10#6 ++ sub ++ rt ++ rd ++ 0x000#11

/-- COP0 operation with CO = 1 (R204, R216). -/
def cop0OpWord (funct : BitVec 6) : Word := 0x10#6 ++ 0x10#5 ++ 0x0000#15 ++ funct

/-- The field of a register number. -/
def regBits (r : Reg) : BitVec 5 := BitVec.ofFin r

/-- The field of a number that `Instr.wellFormed` bounds. -/
def numBits (n : Nat) : BitVec 5 := BitVec.ofNat 5 n

/-- The word of a well-formed instruction. -/
def encode : Instr → Word
  | .sll rt rd shamt => rWord 0#5 (regBits rt) (regBits rd) (numBits shamt) 0x00#6
  | .srl rt rd shamt => rWord 0#5 (regBits rt) (regBits rd) (numBits shamt) 0x02#6
  | .sra rt rd shamt => rWord 0#5 (regBits rt) (regBits rd) (numBits shamt) 0x03#6
  | .sllv rs rt rd => rWord (regBits rs) (regBits rt) (regBits rd) 0#5 0x04#6
  | .srlv rs rt rd => rWord (regBits rs) (regBits rt) (regBits rd) 0#5 0x06#6
  | .srav rs rt rd => rWord (regBits rs) (regBits rt) (regBits rd) 0#5 0x07#6
  | .jr rs => rWord (regBits rs) 0#5 0#5 0#5 0x08#6
  | .jalr rs rd => rWord (regBits rs) 0#5 (regBits rd) 0#5 0x09#6
  | .syscall code => codeWord code 0x0C#6
  | .brk code => codeWord code 0x0D#6
  | .mfhi rd => rWord 0#5 0#5 (regBits rd) 0#5 0x10#6
  | .mthi rs => rWord (regBits rs) 0#5 0#5 0#5 0x11#6
  | .mflo rd => rWord 0#5 0#5 (regBits rd) 0#5 0x12#6
  | .mtlo rs => rWord (regBits rs) 0#5 0#5 0#5 0x13#6
  | .mult rs rt => rWord (regBits rs) (regBits rt) 0#5 0#5 0x18#6
  | .multu rs rt => rWord (regBits rs) (regBits rt) 0#5 0#5 0x19#6
  | .div rs rt => rWord (regBits rs) (regBits rt) 0#5 0#5 0x1A#6
  | .divu rs rt => rWord (regBits rs) (regBits rt) 0#5 0#5 0x1B#6
  | .add rs rt rd => rWord (regBits rs) (regBits rt) (regBits rd) 0#5 0x20#6
  | .addu rs rt rd => rWord (regBits rs) (regBits rt) (regBits rd) 0#5 0x21#6
  | .sub rs rt rd => rWord (regBits rs) (regBits rt) (regBits rd) 0#5 0x22#6
  | .subu rs rt rd => rWord (regBits rs) (regBits rt) (regBits rd) 0#5 0x23#6
  | .and rs rt rd => rWord (regBits rs) (regBits rt) (regBits rd) 0#5 0x24#6
  | .or rs rt rd => rWord (regBits rs) (regBits rt) (regBits rd) 0#5 0x25#6
  | .xor rs rt rd => rWord (regBits rs) (regBits rt) (regBits rd) 0#5 0x26#6
  | .nor rs rt rd => rWord (regBits rs) (regBits rt) (regBits rd) 0#5 0x27#6
  | .slt rs rt rd => rWord (regBits rs) (regBits rt) (regBits rd) 0#5 0x2A#6
  | .sltu rs rt rd => rWord (regBits rs) (regBits rt) (regBits rd) 0#5 0x2B#6
  | .bltz rs offset => iWord 0x01#6 (regBits rs) 0x00#5 offset
  | .bgez rs offset => iWord 0x01#6 (regBits rs) 0x01#5 offset
  | .bltzal rs offset => iWord 0x01#6 (regBits rs) 0x10#5 offset
  | .bgezal rs offset => iWord 0x01#6 (regBits rs) 0x11#5 offset
  | .j target => jWord 0x02#6 target
  | .jal target => jWord 0x03#6 target
  | .beq rs rt offset => iWord 0x04#6 (regBits rs) (regBits rt) offset
  | .bne rs rt offset => iWord 0x05#6 (regBits rs) (regBits rt) offset
  | .blez rs offset => iWord 0x06#6 (regBits rs) 0#5 offset
  | .bgtz rs offset => iWord 0x07#6 (regBits rs) 0#5 offset
  | .addi rs rt imm => iWord 0x08#6 (regBits rs) (regBits rt) imm
  | .addiu rs rt imm => iWord 0x09#6 (regBits rs) (regBits rt) imm
  | .slti rs rt imm => iWord 0x0A#6 (regBits rs) (regBits rt) imm
  | .sltiu rs rt imm => iWord 0x0B#6 (regBits rs) (regBits rt) imm
  | .andi rs rt imm => iWord 0x0C#6 (regBits rs) (regBits rt) imm
  | .ori rs rt imm => iWord 0x0D#6 (regBits rs) (regBits rt) imm
  | .xori rs rt imm => iWord 0x0E#6 (regBits rs) (regBits rt) imm
  | .lui rt imm => iWord 0x0F#6 0#5 (regBits rt) imm
  | .lb base rt offset => iWord 0x20#6 (regBits base) (regBits rt) offset
  | .lh base rt offset => iWord 0x21#6 (regBits base) (regBits rt) offset
  | .lwl base rt offset => iWord 0x22#6 (regBits base) (regBits rt) offset
  | .lw base rt offset => iWord 0x23#6 (regBits base) (regBits rt) offset
  | .lbu base rt offset => iWord 0x24#6 (regBits base) (regBits rt) offset
  | .lhu base rt offset => iWord 0x25#6 (regBits base) (regBits rt) offset
  | .lwr base rt offset => iWord 0x26#6 (regBits base) (regBits rt) offset
  | .sb base rt offset => iWord 0x28#6 (regBits base) (regBits rt) offset
  | .sh base rt offset => iWord 0x29#6 (regBits base) (regBits rt) offset
  | .swl base rt offset => iWord 0x2A#6 (regBits base) (regBits rt) offset
  | .sw base rt offset => iWord 0x2B#6 (regBits base) (regBits rt) offset
  | .swr base rt offset => iWord 0x2E#6 (regBits base) (regBits rt) offset
  | .cache base op offset => iWord 0x2F#6 (regBits base) (numBits op) offset
  | .mfc0 rt rd => cop0Word 0x00#5 (regBits rt) (numBits rd)
  | .mtc0 rt rd => cop0Word 0x04#5 (regBits rt) (numBits rd)
  | .tlbr => cop0OpWord 0x01#6
  | .tlbwi => cop0OpWord 0x02#6
  | .tlbwr => cop0OpWord 0x06#6
  | .tlbp => cop0OpWord 0x08#6
  | .rfe => cop0OpWord 0x10#6
  | .cop1 sub => jWord 0x11#6 sub
  | .cop2 sub => jWord 0x12#6 sub
  | .cop3 sub => jWord 0x13#6 sub
  | .lwc1 base rt offset => iWord 0x31#6 (regBits base) (numBits rt) offset
  | .lwc2 base rt offset => iWord 0x32#6 (regBits base) (numBits rt) offset
  | .lwc3 base rt offset => iWord 0x33#6 (regBits base) (numBits rt) offset
  | .swc1 base rt offset => iWord 0x39#6 (regBits base) (numBits rt) offset
  | .swc2 base rt offset => iWord 0x3A#6 (regBits base) (numBits rt) offset
  | .swc3 base rt offset => iWord 0x3B#6 (regBits base) (numBits rt) offset

/-- The bytes of a well-formed instruction, the lowest address first. -/
def encodeBytes (e : Endian) (i : Instr) : List Byte := bytesOfWord e (encode i)

end Sys2Proof
end

