-- ==== Sys2Proof/Machine/State.lean ====
section
/-! DEFINITION. The state of the machine as plain data (spec/10_state.md), the reasons a step can stop, and the state
right after reset (R71, spec/70_reset_and_hazards.md R520). -/

namespace Sys2Proof.Machine

/-! ### Pipeline snapshots (R38 to R46) -/

/-- A pipeline stage whose work an instruction takes part in. IF, which only fetches a word, is no stage of an
instruction's own rule. -/
inductive Stage where
  | decode
  | execute
  | memory
  | writeback
  deriving DecidableEq, Repr, Inhabited

/-- A register selector (R42). -/
inductive Selector where
  | reg (r : Reg)
  | returnAddress
  | none
  deriving DecidableEq, Repr, Inhabited

/-- An operand source (R41). `stage` of `forwarded` is the stage the producer occupied when the consumer was decoded. -/
inductive OperandSource where
  | architectural (r : Reg)
  | forwarded (stage : Stage) (r : Reg)
  | immediate (v : Word)
  | shiftAmount (v : Word)
  deriving DecidableEq, Repr, Inhabited

/-- The exception kinds (R45). -/
inductive ExcKind where
  | addrErr
  | tlb
  | mod
  | ibe
  | dbe
  | ov
  | tr
  | sys
  | bp
  | ri
  | cpu
  | int
  deriving DecidableEq, Repr, Inhabited

/-- An exception record (R44). -/
structure ExcRecord where
  kind     : ExcKind
  mode     : AccessMode
  cop      : BitVec 2 := 0#2
  badVAddr : Word := 0#32
  refill   : Bool := false
  deriving DecidableEq, Repr, Inhabited

/-- A stage snapshot (R40). The default is the bubble (R39): the NOP word, no records, nothing decoded. A field whose
type has no empty value is, where the spec gives none, the model's (DESIGN CHOICE, log entry 17): the `pc` of every bubble,
at reset and after a flush, a squash, a stall or a fetch that is not ready, is 0, and the operand sources not yet decoded
are the architectural register 0; nothing reads them. -/
structure Snapshot where
  pc           : Word := 0#32
  instr        : Word := 0#32
  bubble       : Bool := true
  src1         : Selector := .none
  src2         : Selector := .none
  dest         : Selector := .none
  useShamt     : Bool := false
  immSext      : Bool := false
  memRead      : Bool := false
  memWrite     : Bool := false
  reserved     : Bool := false
  imm          : Word := 0#32
  opA          : OperandSource := .architectural 0
  opB          : OperandSource := .architectural 0
  valA         : Word := 0#32
  valB         : Word := 0#32
  result       : Word := 0#32
  ea           : Word := 0#32
  storeData    : Word := 0#32
  exSideEffect : Bool := false
  memIssued    : Bool := false
  exc          : List ExcRecord := []
  deriving DecidableEq, Repr, Inhabited

/-- The bubble (R39); its `pc` 0 is the model's (DESIGN CHOICE, log entry 17). -/
def bubbleSnapshot : Snapshot := {}

/-- The five slots IF, ID, EX, MEM, WB (R38). -/
structure Pipeline where
  fetch  : Snapshot := {}
  dec    : Snapshot := {}
  ex     : Snapshot := {}
  mem    : Snapshot := {}
  wb     : Snapshot := {}
  deriving DecidableEq, Repr, Inhabited

/-! ### Caches and bus (R61 to R66) -/

/-- The two cache instances (R61). -/
inductive CacheId where
  | icache
  | dcache
  deriving DecidableEq, Repr, Inhabited

/-- A cache line (R63). The tag is the physical address shifted right, so it has at most 32 bits. -/
structure CacheLine where
  valid      : Bool := false
  dirty      : Bool := false
  tag        : Word := 0#32
  lastAccess : Nat := 0
  data       : List Word := []
  deriving DecidableEq, Repr, Inhabited

/-- The controller states (R64). -/
inductive CtrlState where
  | idle
  | fetch
  | writeback
  | opWriteback
  deriving DecidableEq, Repr, Inhabited

/-- The fill chained after an eviction writeback (R64, spec/20_memory.md R144). -/
structure Fill where
  addr  : Word
  way   : Nat
  index : Nat
  mode  : AccessMode
  deriving DecidableEq, Repr, Inhabited

/-- A cache transaction (R64). -/
structure Txn where
  remaining  : Nat
  next       : Nat
  addr       : Word
  way        : Nat
  index      : Nat
  mode       : AccessMode
  invalidate : Bool
  client     : Client
  entered    : Bool
  thenFill   : Option Fill
  deriving DecidableEq, Repr, Inhabited

/-- One cache instance (R62, R64, R65): its lines in one flat array indexed by way * block_count + index. -/
structure Cache where
  lines  : List CacheLine
  ctrl   : CtrlState := .idle
  txn    : Option Txn := none
  hits   : Nat := 0
  misses : Nat := 0
  deriving DecidableEq, Repr, Inhabited

/-- The bus token (R66). -/
structure BusToken where
  holder           : Option Client := none
  lastReleaseCycle : Option Nat := none
  lastReleaser     : Option Client := none
  deriving DecidableEq, Repr, Inhabited

/-- A word of interest enqueued by `request_word` (spec/20_memory.md R113). -/
structure BusRequest where
  addr   : Word
  mode   : AccessMode
  client : Client
  deriving DecidableEq, Repr, Inhabited

/-! ### Environment (R67 to R70) -/

/-- Physical memory (R69) as (address, byte) pairs, addresses strictly rising, none holding what an unlisted address
reads as (`Memory.unlisted`). -/
abbrev Memory := List Host.Cell

/-- What a byte of memory that nothing has written reads as (log entry 7, DESIGN CHOICE). -/
def Memory.unlisted : Byte := 0#8

/-- An access that reached a device (spec/20_memory.md R116, R125): what the environment sees of it, oldest first.
`data` is the stored value, or none for a fetch. -/
structure DeviceAccess where
  client : Client
  addr   : Word
  bytes  : Nat
  data   : Option Word
  deriving DecidableEq, Repr, Inhabited

/-- The environment's inputs as plain data (log entry 5): the pins and masters of the current cycle, the tape of the
cycles to come, the answers of the `ready` polls to come, and what follows a tape's end: `quiet` (pins hold, masters
idle, every poll answers true) or else the free values of Config. -/
structure Env where
  pins    : BitVec 6 := 0#6
  masters : List MasterAction := []
  tape    : List CycleInput := []
  polls   : List Bool := []
  quiet   : Bool := true
  deriving DecidableEq, Repr, Inhabited

/-! ### The whole state -/

/-- The state of the machine. Beside what spec/10_state.md names it holds the model's own fields `requests`, `devLog`,
`draws`, `active`, `stall` and `halted`. -/
structure State where
  /-- The run's parameters (spec/00_scope.md R8); no step changes them. -/
  cfg           : Params
  /-- r0 to r31 (R30); entry 0 is zero at reset and never written (R31). -/
  gpr           : Vector Word 32
  hi            : Word
  lo            : Word
  /-- The fetch register (R37). -/
  pc            : Word
  pipe          : Pipeline
  /-- R43. -/
  intShadow     : Bool
  /-- CP0 register 12 (R51). -/
  sr            : Word
  /-- CP0 register 13 (R54) but for IP[7:2], which are the live pins `env.pins`. -/
  cause         : Word
  /-- CP0 register 14 (R56). -/
  epc           : Word
  /-- CP0 register 8 (R57). -/
  badVAddr      : Word
  icache        : Cache
  dcache        : Cache
  bus           : BusToken
  /-- The global cycle counter (R67). -/
  cycle         : Nat
  /-- R68. -/
  loadUseEvents : Nat
  /-- Mapper memory (R69). -/
  mem           : Memory
  /-- Interest enqueued on the Mapper and not yet transferred (spec/20_memory.md R113). -/
  requests      : List BusRequest
  /-- Accesses that reached devices (spec/20_memory.md R116). -/
  devLog        : List DeviceAccess
  env           : Env
  /-- How many free values have been drawn (log entry 4). -/
  draws         : Nat
  /-- Which stage's work the cycle is running; `writeback` between cycles. -/
  active        : Stage
  /-- Whether the MEM step of the current cycle stalls (spec/70_reset_and_hazards.md R543, R544). -/
  stall         : Bool
  /-- Whether the run has ended (spec/70_reset_and_hazards.md R570). -/
  halted        : Bool
  deriving DecidableEq, Repr

/-- Why the machine stops with a fault. -/
inductive Fault where
  /-- The flat line array of a present cache does not have ways * block_count lines, or a line does not have
  block_size / 4 words: the bounds check of R62. Raised by `step` before the first cycle it would run; no state reached
  from a reset state has it. Safe: the machine stops where the hardware has no such state. -/
  | cacheArrayBounds
  deriving DecidableEq, Repr

/-- Why the model gives a step no meaning. -/
inductive Refusal where
  /-- An instruction without a meaning in this model: answered by arms of `exec` only. Safe. -/
  | notModelled (mnemonic : String)
  /-- The cache geometry is invalid, so no run exists (spec/00_scope.md R9). Raised by `step`. Safe. -/
  | invalidGeometry
  /-- TLBR, TLBWI, TLBWR, TLBP, or MFC0/MTC0 of Index, Random, EntryLo, Context or EntryHi, in EX with no record and
  a true guard (spec/43_system.md R427): the spec refuses them. Safe. -/
  | tlbAbstraction
  /-- A usable COP1 to COP3, LWC1 to LWC3 or SWC1 to SWC3 in EX with no record and a true guard (spec/43_system.md
  R428): the spec refuses them, no such coprocessor exists. Safe. -/
  | coprocessorAbsent
  /-- A line fill or writeback touches a word that is not Mapped (spec/20_memory.md R115). Raised by a cache's transfer
  step (log entry 12). Safe. -/
  | lineUnmapped
  /-- A release of the bus by a client that does not hold it (spec/20_memory.md R171). Safe. -/
  | releaseByNonHolder
  /-- The environment's tape has an external master use the Mapper without the token, which R173 of spec/20_memory.md
  does not admit. Safe. -/
  | masterWithoutToken
  deriving DecidableEq, Repr

/-- The outcome of a step of this machine. -/
abbrev Out := Host.Outcome State Fault Refusal

/-- The lines of a cache after reset: invalid, clean, stamp 0 (R71), so that kseg0 may be used at once without
invalidation (spec/70_reset_and_hazards.md R523); tag and data, which the spec leaves unspecified
and no rule reads, are zero (log entry 3). -/
def resetLines (g : Geometry) : List CacheLine :=
  List.replicate (g.ways * g.blockCount) { data := List.replicate (g.blockSize / 4) 0#32 }

/-- The machine right after reset of a run with parameters `p` (R71, spec/70_reset_and_hazards.md R520, R523): PC at RESET_PC, bubbles everywhere, SR with only
BEV set among the bits the spec gives, caches empty, bus free, cycle 0. What the spec leaves unspecified has the value
log entry 3 names. -/
def State.resetOf (p : Params) : State where
  cfg           := p
  gpr           := (Vector.replicate 32 Config.unspecifiedWord).set 0 0#32
  hi            := Config.unspecifiedWord
  lo            := Config.unspecifiedWord
  pc            := p.resetPc
  pipe          := {}
  intShadow     := false
  sr            := 0x00400000#32
  cause         := 0#32
  epc           := 0#32
  badVAddr      := 0#32
  icache        := { lines := resetLines p.icacheGeom }
  dcache        := { lines := resetLines p.dcacheGeom }
  bus           := {}
  cycle         := 0
  loadUseEvents := 0
  mem           := []
  requests      := []
  devLog        := []
  env           := {}
  draws         := 0
  active        := .writeback
  stall         := false
  halted        := false

/-- The machine right after reset, with the parameters of `Config.params`. -/
def State.reset : State := State.resetOf Config.params

end Sys2Proof.Machine
end

