-- ==== Sys2Proof/Machine/Ops.lean ====
section
/-! DEFINITION. The named operations over registers, CP0, memory and free values; taking an exception
(spec/60_exceptions.md R470 to R475) and the return from one (spec/43_system.md R424). -/

namespace Sys2Proof.Machine

/-- Run `k` on the next state of `o`; a fault or a refusal stays. -/
def andThen (o : Out) (k : State → Out) : Out :=
  match o with
  | .next s => k s
  | .fault f => .fault f
  | .refused r => .refused r

/-! ### General registers, HI, LO -/

/-- Read a general register: r0 is always zero (spec/10_state.md R31). -/
def readGpr (s : State) (r : Reg) : Word := if r = 0 then 0#32 else s.gpr.get r

/-- Commit a general register: a write to r0 changes nothing (R31). -/
def writeGpr (s : State) (r : Reg) (v : Word) : State :=
  if r = 0 then s else { s with gpr := s.gpr.set r.val v r.isLt }

/-! ### Slots -/

def State.setDec (s : State) (x : Snapshot) : State := { s with pipe := { s.pipe with dec := x } }
def State.setEx (s : State) (x : Snapshot) : State := { s with pipe := { s.pipe with ex := x } }
def State.setMem (s : State) (x : Snapshot) : State := { s with pipe := { s.pipe with mem := x } }
def State.setWb (s : State) (x : Snapshot) : State := { s with pipe := { s.pipe with wb := x } }

/-- The flush: every slot a bubble, the shadow cleared (R43, spec/60_exceptions.md R474). -/
def State.flush (s : State) : State := { s with pipe := {}, intShadow := false }

/-- The register a selector names as a destination (spec/70_reset_and_hazards.md R533): none for None and r0. -/
def Selector.destReg : Selector → Option Reg
  | .reg r => if r = 0 then Option.none else some r
  | .returnAddress => some 31
  | .none => Option.none

/-- The destination register of a snapshot; a bubble has none (R533). -/
def Snapshot.destReg (x : Snapshot) : Option Reg := if x.bubble then none else x.dest.destReg

/-- Append records to a snapshot's buffer (spec/60_exceptions.md R452). -/
def Snapshot.raise (x : Snapshot) (recs : List ExcRecord) : Snapshot := { x with exc := x.exc ++ recs }

/-! ### Coprocessor 0 (spec/10_state.md R50 to R58) -/

/-- The bits of SR that MTC0 writes (R53). -/
def srWriteMask : Word := 0xF043FF3F#32

/-- KUc = 1: user mode (R52). -/
def State.userMode (s : State) : Bool := s.sr.getLsbD 1

/-- IEc (R51). -/
def State.interruptsEnabled (s : State) : Bool := s.sr.getLsbD 0

/-- BEV (R51). -/
def State.bootVectors (s : State) : Bool := s.sr.getLsbD 22

/-- IsC (R51, spec/20_memory.md R158). -/
def State.isolated (s : State) : Bool := s.sr.getLsbD 16

/-- CU[z] (R51). -/
def State.copUsable (s : State) (z : BitVec 2) : Bool := s.sr.getLsbD (28 + z.toNat)

/-- Cause as it reads: the stored fields with IP[7:2] the live pins (R54, R70). -/
def readCause (s : State) : Word := (s.cause &&& 0xFFFF03FF#32) ||| (s.env.pins.zeroExtend 32 <<< 10)

/-- The interrupt condition: IEc and some pending bit enabled (spec/60_exceptions.md R461). -/
def intCond (s : State) : Bool :=
  s.interruptsEnabled && ((readCause s).extractLsb' 8 8 &&& s.sr.extractLsb' 8 8) != 0#8

/-- The push of SR's mode and enable stack at exception entry (spec/60_exceptions.md R474). -/
def pushStatus (sr : Word) : Word := (sr &&& 0xFFFFFFC0#32) ||| ((sr &&& 0x0000000F#32) <<< 2)

/-- The pop of SR's stack by RFE (spec/43_system.md R424): SR[3:0] <- SR[5:2]. -/
def popStatus (sr : Word) : Word := (sr &&& 0xFFFFFFF0#32) ||| ((sr &&& 0x0000003C#32) >>> 2)

/-- What reading a CP0 register number gives (R50). -/
inductive Cp0Read where
  | value (v : Word)
  /-- No register has this number: a draw (R60). -/
  | draw
  /-- A register of the TLB abstraction: refused (R59). -/
  | tlb

/-- MFC0's view of CP0 register n (R50). -/
def cp0Read (s : State) (n : Nat) : Cp0Read :=
  if n = 8 then .value s.badVAddr
  else if n = 12 then .value s.sr
  else if n = 13 then .value (readCause s)
  else if n = 14 then .value s.epc
  else if n = 15 then .value s.cfg.prid
  else if n = 0 ∨ n = 1 ∨ n = 2 ∨ n = 4 ∨ n = 10 then .tlb
  else .draw

/-- What writing a CP0 register number does (R50). -/
inductive Cp0Write where
  | wrote (s : State)
  /-- Read-only or without a register: ignored (R56 to R58, R60). -/
  | ignored
  /-- A register of the TLB abstraction: refused (R59). -/
  | tlb

/-- MTC0 of `v` to CP0 register n (R53, R55 to R60). -/
def cp0Write (s : State) (n : Nat) (v : Word) : Cp0Write :=
  if n = 12 then .wrote { s with sr := v &&& srWriteMask }
  else if n = 13 then .wrote { s with cause := (s.cause &&& 0xFFFFFCFF#32) ||| (v &&& 0x00000300#32) }
  else if n = 0 ∨ n = 1 ∨ n = 2 ∨ n = 4 ∨ n = 10 then .tlb
  else .ignored

/-! ### Free values -/

/-- The next drawn word (spec/00_scope.md R12); the draw is counted by `State.drew`. -/
def State.freeWord (s : State) : Word := Config.freeWord s.draws

/-- Count `n` draws. -/
def State.drew (s : State) (n : Nat) : State := { s with draws := s.draws + n }

/-! ### Memory bytes (spec/10_state.md R69) -/

/-- One byte of memory. -/
def Memory.read : Memory → Nat → Byte
  | [], _ => Memory.unlisted
  | (b, v) :: m, a => if a = b then v else Memory.read m a

/-- List `v` at address `a`, keeping addresses rising. -/
def Memory.insert : Memory → Nat → Byte → Memory
  | [], a, v => [(a, v)]
  | (b, w) :: m, a, v =>
    if a < b then (a, v) :: (b, w) :: m
    else if a = b then (a, v) :: m
    else (b, w) :: Memory.insert m a v

/-- Unlist address `a`. -/
def Memory.erase : Memory → Nat → Memory
  | [], _ => []
  | (b, w) :: m, a => if a = b then Memory.erase m a else (b, w) :: Memory.erase m a

/-- Write one byte, keeping the canonical form: what an unlisted address reads as is not listed. -/
def Memory.write (m : Memory) (a : Nat) (v : Byte) : Memory :=
  if v = Memory.unlisted then Memory.erase m a else Memory.insert m a v

/-- Every address of `m` is above `a`, addresses rise strictly, and no byte is the unlisted one. -/
def Memory.wfAbove : Nat → Memory → Bool
  | _, [] => true
  | a, (b, v) :: m => decide (a < b) && v != Memory.unlisted && Memory.wfAbove b m

/-- The canonical form of memory. -/
def Memory.wf : Memory → Bool
  | [] => true
  | (b, v) :: m => v != Memory.unlisted && Memory.wfAbove b m

/-- The widths of an access (spec/20_memory.md R101). -/
inductive Width where
  | byte
  | half
  | word
  deriving DecidableEq, Repr, Inhabited

/-- Bytes of a width. -/
def Width.bytes : Width → Nat
  | .byte => 1
  | .half => 2
  | .word => 4

/-- `n` bytes from physical address `pa` up, addresses modulo 2^32. -/
def Memory.readBytes (m : Memory) (pa : Word) : Nat → List Byte
  | 0 => []
  | n + 1 => Memory.read m pa.toNat :: Memory.readBytes m (pa + 1#32) n

/-- Write bytes from physical address `pa` up, addresses modulo 2^32. -/
def Memory.writeBytes (m : Memory) (pa : Word) : List Byte → Memory
  | [] => m
  | b :: bs => Memory.writeBytes (Memory.write m pa.toNat b) (pa + 1#32) bs

/-- The value of bytes, the first the most significant. -/
def valueBig : List Byte → Word
  | [] => 0#32
  | b :: bs => (b.zeroExtend 32 <<< (8 * bs.length)) ||| valueBig bs

/-- The value of bytes, the first the least significant. -/
def valueLittle : List Byte → Word
  | [] => 0#32
  | b :: bs => b.zeroExtend 32 ||| (valueLittle bs <<< 8)

/-- Byte order (spec/20_memory.md R112). -/
def valueOfBytes (e : Endian) (bs : List Byte) : Word :=
  match e with
  | .big => valueBig bs
  | .little => valueLittle bs

/-- The low bytes of a value, most significant first. -/
def bytesBig (v : Word) : Nat → List Byte
  | 0 => []
  | n + 1 => byteOf v n :: bytesBig v n

/-- The bytes of an n-byte value as memory holds them, the lowest address first (spec/20_memory.md R112). -/
def bytesOfValue (e : Endian) (n : Nat) (v : Word) : List Byte :=
  match e with
  | .big => bytesBig v n
  | .little => (bytesBig v n).reverse

/-- An n-byte value of a word: its low bytes, the rest zero. -/
def Width.truncate (w : Width) (v : Word) : Word :=
  match w with
  | .byte => v &&& 0x000000FF#32
  | .half => v &&& 0x0000FFFF#32
  | .word => v

/-! ### Exceptions (spec/60_exceptions.md R450, R470 to R475) -/

/-- ExcCode of a record (R450). -/
def ExcRecord.code (r : ExcRecord) : BitVec 5 :=
  match r.kind with
  | .int => 0#5
  | .mod => 1#5
  | .tlb => if r.mode = .store then 3#5 else 2#5
  | .addrErr => if r.mode = .store then 5#5 else 4#5
  | .ibe => 6#5
  | .dbe => 7#5
  | .sys => 8#5
  | .bp => 9#5
  | .ri => 10#5
  | .cpu => 11#5
  | .ov => 12#5
  | .tr => 13#5

/-- The rank of R471 with the listing order of R472 inside rank 4: ten times the rank plus the place in the list; a
lower number is a higher priority. -/
def ExcRecord.rank (r : ExcRecord) : Nat :=
  match r.kind, r.mode with
  | .addrErr, .fetch => 10
  | .tlb, .fetch => 20
  | .ibe, .fetch => 30
  | .ov, _ => 40
  | .tr, _ => 41
  | .sys, _ => 42
  | .bp, _ => 43
  | .ri, _ => 44
  | .cpu, _ => 45
  | .addrErr, .load => 50
  | .addrErr, .store => 50
  | .tlb, .load => 60
  | .tlb, .store => 60
  | .mod, .store => 70
  | .dbe, .load => 80
  | .dbe, .store => 80
  | .int, _ => 90
  | _, _ => 100

/-- The record of highest priority, the first appended among equals (R472, R473). -/
def selectFrom (best : ExcRecord) : List ExcRecord → ExcRecord
  | [] => best
  | r :: rs => selectFrom (if r.rank < best.rank then r else best) rs

/-- The record a buffer has taken, none for an empty buffer (R473). -/
def selectRecord : List ExcRecord → Option ExcRecord
  | [] => none
  | r :: rs => some (selectFrom r rs)

/-- The handler's address (R475): the base BEV selects plus the offset of a TLB refill or the common one. -/
def vector (bev : Bool) (r : ExcRecord) : Word :=
  (if bev then 0xBFC00100#32 else 0x80000000#32) + (if r.kind = .tlb ∧ r.refill = true then 0x000#32 else 0x080#32)

/-- Cause after entry with record r (R474): ExcCode, CE and BD replaced, the rest kept. -/
def causeAtEntry (cause : Word) (r : ExcRecord) : Word :=
  (cause &&& 0x4FFFFF83#32)
    ||| ((if r.kind = .cpu then r.cop else 0#2).zeroExtend 32 <<< 28)
    ||| (r.code.zeroExtend 32 <<< 2)

/-- Whether entry writes BadVAddr (R474). -/
def ExcRecord.hasAddress (r : ExcRecord) : Bool :=
  match r.kind with
  | .addrErr | .tlb | .mod => true
  | .ibe | .dbe | .ov | .tr | .sys | .bp | .ri | .cpu | .int => false

/-- TAKING AN EXCEPTION (R474): the record `r` of an instruction at address `pc`. -/
def takeException (s : State) (pc : Word) (r : ExcRecord) : State :=
  { s.flush with
    sr       := pushStatus s.sr
    cause    := causeAtEntry s.cause r
    epc      := pc
    badVAddr := if r.hasAddress then r.badVAddr else s.badVAddr
    pc       := vector s.bootVectors r }

/-- THE RETURN (spec/43_system.md R424): RFE's pop of SR. The jump to the restart address is an instruction of its own
(spec/60_exceptions.md R480), which RFE's int_shadow keeps from being interrupted and which was fetched before the mode
changed (spec/70_reset_and_hazards.md R523 item 7, R562). -/
def returnFromException (s : State) : State := { s with sr := popStatus s.sr }

end Sys2Proof.Machine
end

