-- ==== Sys2Proof/Machine/Mapper.lean ====
section
/-! DEFINITION. The external collaborators at their interfaces: the memory map, Translate, the Mapper's word, halfword
and byte accesses, its ready poll, and the bus arbiter (spec/20_memory.md R106, R110 to R116, R170 to R174). -/

namespace Sys2Proof

/-- Whether a rule of the translation table covers an access. -/
def TransRule.covers (r : TransRule) (va : Word) (mode : AccessMode) : Bool :=
  (r.first.ule va && va.ule r.last) &&
    (match mode with
     | .fetch => r.onFetch
     | .load => r.onLoad
     | .store => r.onStore
     | .any => false)

/-- What a rule answers. -/
def TransAct.answer (a : TransAct) (va : Word) (mode : AccessMode) : Translation :=
  match a with
  | .map delta cacheable writable => if mode = .store ∧ writable = false then .modFault else .ok (va + delta) cacheable
  | .miss refill => .tlbFault refill

end Sys2Proof

namespace Sys2Proof.Machine

/-- The region that holds a physical address, the first listed. -/
def regionOf : List Region → Nat → Option Region
  | [], _ => none
  | r :: rs, a => if r.base ≤ a ∧ a < r.base + r.size then some r else regionOf rs a

/-- `Mapped(pa)` (R115). -/
def mapped (p : Params) (pa : Word) : Bool := (regionOf p.regions pa.toNat).isSome

/-- Whether the address belongs to a device (R116). -/
def isDevice (p : Params) (pa : Word) : Bool :=
  match regionOf p.regions pa.toNat with
  | some r => r.kind == .device
  | none => false

/-- The answer of the run's table, and of the free function where no rule covers the access. -/
def rawTranslate : List TransRule → Word → AccessMode → Translation
  | [], va, mode => Config.freeTranslate va mode
  | r :: rs, va, mode => if r.covers va mode then r.act.answer va mode else rawTranslate rs va mode

/-- `Translate(va, mode)` (R106), whatever the table or the free function says held to the rule's own limits: a refill
miss only of a kuseg address, a ModFault only for a store (log entry 6). Nothing else is assumed of it: the physical
address may be any, also one that is not aligned where `va` is. -/
def translate (p : Params) (va : Word) (mode : AccessMode) : Translation :=
  match rawTranslate p.translate va mode with
  | .ok pa c => .ok pa c
  | .tlbFault refill => .tlbFault (refill && !va.msb)
  | .modFault => if mode = .store then .modFault else .tlbFault false

/-! ### Word, halfword and byte accesses (R110 to R112, R116) -/

/-- Whether an address is aligned for a width (R122, R110). -/
def aligned (va : Word) : Width → Bool
  | .byte => true
  | .half => va &&& 1#32 == 0#32
  | .word => va &&& 3#32 == 0#32

/-- The Mapper's address error on a misaligned physical address, as the record its caller appends (R110): with the
access's mode and, as every address error of that access (spec/60_exceptions.md R451), its virtual address `bad` (log
entry 16). Only a Translate that moves an aligned address off its alignment leads here. -/
def mapperError (pa : Word) (w : Width) (mode : AccessMode) (bad : Word) : List ExcRecord :=
  if aligned pa w then [] else [{ kind := .addrErr, mode := mode, badVAddr := bad }]

/-- `fetch_n(pa)`: the value at a physical address, and the state after it: memory as stored, a device a draw. -/
def mapperFetch (s : State) (pa : Word) (w : Width) (c : Client) : Word × State :=
  if isDevice s.cfg pa then
    (w.truncate s.freeWord,
     { s.drew 1 with devLog := s.devLog ++ [{ client := c, addr := pa, bytes := w.bytes, data := none }] })
  else (valueOfBytes s.cfg.endian (s.mem.readBytes pa w.bytes), s)

/-- `store_n(pa, v)`: memory holds the value's bytes; a store to a device is handed to the environment. -/
def mapperStore (s : State) (pa : Word) (w : Width) (v : Word) (c : Client) : State :=
  if isDevice s.cfg pa then
    { s with devLog := s.devLog ++ [{ client := c, addr := pa, bytes := w.bytes, data := some (w.truncate v) }] }
  else { s with mem := s.mem.writeBytes pa (bytesOfValue s.cfg.endian w.bytes v) }

/-! ### Burst protocol (R113) -/

/-- `request_word`: enqueue interest, idempotent if already pending. -/
def requestWord (s : State) (r : BusRequest) : State :=
  if s.requests.contains r then s else { s with requests := s.requests ++ [r] }

/-- Request `n` words from `addr` up (R148). -/
def requestWords (s : State) (addr : Word) (mode : AccessMode) (c : Client) : Nat → State
  | 0 => s
  | n + 1 => requestWords (requestWord s { addr, mode, client := c }) (addr + 4#32) mode c n

/-- A word that has moved is no longer pending (log entry 9). -/
def retireRequest (s : State) (r : BusRequest) : State := { s with requests := s.requests.erase r }

/-- `ready`: one poll's answer, from the tape, and after it quietly true or a draw. -/
def pollReady (s : State) : Bool × State :=
  match s.env.polls with
  | b :: bs => (b, { s with env := { s.env with polls := bs } })
  | [] => if s.env.quiet then (true, s) else (Config.freeReady s.draws, s.drew 1)

/-! ### Bus arbiter (R170, R171) -/

/-- `acquire_bus`: whether the client has the token, and the state after. -/
def acquireBus (s : State) (c : Client) : Bool × State :=
  if s.bus.holder = some c then (true, s)
  else if s.bus.holder = none ∧ ¬(s.bus.lastReleaseCycle = some s.cycle ∧ s.bus.lastReleaser ≠ some c) then
    (true, { s with bus := { s.bus with holder := some c } })
  else (false, s)

/-- `release_bus`: refused for a client that does not hold the token. -/
def releaseBus (s : State) (c : Client) : Out :=
  if s.bus.holder = some c then
    .next { s with bus := { holder := none, lastReleaseCycle := some s.cycle, lastReleaser := some c } }
  else .refused .releaseByNonHolder

/-! ### External masters (R173) -/

/-- A Mapper call by an external master: only while it holds the token. -/
def asHolder (s : State) (id : Nat) (t : State) : Out :=
  if s.bus.holder = some (.external id) then .next t else .refused .masterWithoutToken

/-- Whether the Mapper takes a word access: aligned and mapped (R110); otherwise it answers that master with an error,
which nothing in this block sees. -/
def mapperTakes (s : State) (a : Word) : Bool := aligned a .word && mapped s.cfg a

/-- A master's word has moved: its request for it, if it made one, is no longer pending (log entry 9). -/
def masterMoved (s : State) (id : Nat) (a : Word) (mode : AccessMode) : State :=
  retireRequest s { addr := a, mode, client := .external id }

/-- One action of an external master. The answer of a `ready` goes to the master; the poll it takes is one of the run's
(R113). -/
def masterAct (s : State) : MasterAction → Out
  | .acquire id => .next (acquireBus s (.external id)).2
  | .release id => releaseBus s (.external id)
  | .request id a mode => asHolder s id (requestWord s { addr := a, mode, client := .external id })
  | .ready id _ _ => asHolder s id (pollReady s).2
  | .fetchWord id a mode =>
    asHolder s id (if mapperTakes s a then masterMoved (mapperFetch s a .word (.external id)).2 id a mode else s)
  | .storeWord id a v =>
    asHolder s id (if mapperTakes s a then masterMoved (mapperStore s a .word v (.external id)) id a .store else s)

/-- The external masters' place in the cycle (R174). -/
def runMasters (s : State) : List MasterAction → Out
  | [] => .next s
  | a :: as => andThen (masterAct s a) fun t => runMasters t as

/-- The environment's input of this cycle: the head of the tape; after it the pins hold and the masters are idle, or
the input is free (log entry 5). -/
def sampleInput (s : State) : State :=
  match s.env.tape with
  | i :: rest => { s with env := { s.env with pins := i.pins, masters := i.masters, tape := rest } }
  | [] =>
    if s.env.quiet then { s with env := { s.env with masters := [] } }
    else { s with env := { s.env with pins := (Config.freeInput s.cycle).pins, masters := (Config.freeInput s.cycle).masters } }

end Sys2Proof.Machine
end

