-- ==== Sys2Proof/Machine/Cache.lean ====
section
/-! DEFINITION. The two caches (set_assoc_cache), their controller, the fill and writeback state machines and the
software cache operations (spec/20_memory.md R140 to R164). -/

namespace Sys2Proof

/-- The geometry of an instance (spec/10_state.md R61). -/
def Params.geom (p : Params) : Machine.CacheId → Geometry
  | .icache => p.icacheGeom
  | .dcache => p.dcacheGeom

/-- Whether an instance exists (spec/10_state.md R61). -/
def Params.present (p : Params) : Machine.CacheId → Bool
  | .icache => p.icachePresent
  | .dcache => p.dcachePresent

/-- offset_bits and index_bits (spec/00_scope.md R9). -/
def Geometry.offsetBits (g : Geometry) : Nat := g.blockSize.log2
def Geometry.indexBits (g : Geometry) : Nat := g.blockCount.log2

/-- Words per line (spec/00_scope.md R9). -/
def Geometry.words (g : Geometry) : Nat := g.blockSize / 4

/-- Address decomposition (R140). -/
def Geometry.tag (g : Geometry) (pa : Word) : Word := pa >>> (g.offsetBits + g.indexBits)
def Geometry.index (g : Geometry) (pa : Word) : Nat := (pa.toNat >>> g.offsetBits) % g.blockCount
def Geometry.offset (g : Geometry) (pa : Word) : Nat := pa.toNat % g.blockSize
def Geometry.wordIndex (g : Geometry) (pa : Word) : Nat := g.offset pa / 4
def Geometry.lineBase (g : Geometry) (pa : Word) : Word := (pa >>> g.offsetBits) <<< g.offsetBits

/-- The address of the line a way holds (R144): its tag and index put back in their places. -/
def Geometry.lineAddr (g : Geometry) (tag : Word) (index : Nat) : Word :=
  (tag <<< (g.offsetBits + g.indexBits)) ||| (BitVec.ofNat 32 index <<< g.offsetBits)

/-- Entry of the flat line array (spec/10_state.md R62). -/
def Geometry.slot (g : Geometry) (way index : Nat) : Nat := way * g.blockCount + index

end Sys2Proof

namespace Sys2Proof.Machine

/-! ### Instances and geometry -/

def State.cache (s : State) : CacheId → Cache
  | .icache => s.icache
  | .dcache => s.dcache

def State.setCache (s : State) (c : CacheId) (k : Cache) : State :=
  match c with
  | .icache => { s with icache := k }
  | .dcache => { s with dcache := k }

/-- The client identity of a cache (R144). -/
def CacheId.client : CacheId → Client
  | .icache => .icache
  | .dcache => .dcache

/-- line(w, i) (R141). -/
def Cache.line (k : Cache) (g : Geometry) (way index : Nat) : CacheLine := k.lines.getD (g.slot way index) {}

/-- Replace line(w, i). -/
def Cache.setLine (k : Cache) (g : Geometry) (way index : Nat) (l : CacheLine) : Cache :=
  { k with lines := k.lines.set (g.slot way index) l }

/-- Change line(w, i). -/
def Cache.updLine (k : Cache) (g : Geometry) (way index : Nat) (f : CacheLine → CacheLine) : Cache :=
  k.setLine g way index (f (k.line g way index))

/-- Whether a line holds an address's line (R141). -/
def CacheLine.hits (l : CacheLine) (g : Geometry) (pa : Word) : Bool := l.valid && l.tag == g.tag pa

/-- The lowest way from `w` up, of `n` ways, that holds the line of `pa`. -/
def lookupFrom (k : Cache) (g : Geometry) (pa : Word) (w : Nat) : Nat → Option Nat
  | 0 => none
  | n + 1 => if (k.line g w (g.index pa)).hits g pa then some w else lookupFrom k g pa (w + 1) n

/-- lookup(c, pa) (R141). -/
def lookup (s : State) (c : CacheId) (pa : Word) : Option Nat :=
  lookupFrom (s.cache c) (s.cfg.geom c) pa 0 (s.cfg.geom c).ways

/-! ### Misses (R142 to R144) -/

/-- The first invalid way from `w` up, of `n` ways. -/
def invalidFrom (k : Cache) (g : Geometry) (i w : Nat) : Nat → Option Nat
  | 0 => none
  | n + 1 => if (k.line g w i).valid then invalidFrom k g i (w + 1) n else some w

/-- The way with the oldest stamp from `w` up, of `n` ways, the lowest among equals, `best` the oldest so far. -/
def oldestFrom (k : Cache) (g : Geometry) (i best w : Nat) : Nat → Nat
  | 0 => best
  | n + 1 => oldestFrom k g i (if (k.line g w i).lastAccess < (k.line g best i).lastAccess then w else best) (w + 1) n

/-- Victim selection (R143). -/
def victim (k : Cache) (g : Geometry) (i : Nat) : Nat :=
  match invalidFrom k g i 0 g.ways with
  | some w => w
  | none => oldestFrom k g i 0 1 (g.ways - 1)

/-- The fetch transaction of a fill (R144, R150). -/
def fillTxn (g : Geometry) (c : CacheId) (f : Fill) : Txn :=
  { remaining := g.words, next := 0, addr := f.addr, way := f.way, index := f.index, mode := f.mode,
    invalidate := false, client := c.client, entered := false, thenFill := none }

/-- A writeback transaction of the line at `addr` (R144, R162). -/
def writebackTxn (g : Geometry) (c : CacheId) (addr : Word) (way index : Nat) (invalidate : Bool) (f : Option Fill) : Txn :=
  { remaining := g.words, next := 0, addr := addr, way := way, index := index, mode := .store,
    invalidate := invalidate, client := c.client, entered := false, thenFill := f }

/-- isolated(c): only DCACHE, while SR.IsC = 1 (R158). -/
def State.cacheIsolated (s : State) : CacheId → Bool
  | .icache => false
  | .dcache => s.isolated

/-- start_miss (R144), with the miss counted (R142). -/
def startMiss (s : State) (c : CacheId) (pa : Word) (mode : AccessMode) : State :=
  let g := s.cfg.geom c
  let k := s.cache c
  let i := g.index pa
  let w := victim k g i
  let l := k.line g w i
  let f : Fill := { addr := g.lineBase pa, way := w, index := i, mode := mode }
  if l.valid && l.dirty && mode != .fetch && !s.cacheIsolated c then
    s.setCache c { k with ctrl := .writeback, txn := some (writebackTxn g c (g.lineAddr l.tag i) w i false (some f)),
                          misses := k.misses + 1 }
  else
    s.setCache c { k with ctrl := .fetch, txn := some (fillTxn g c f), misses := k.misses + 1 }

/-- ready(c, pa, mode) (R142): a blocking cache; a miss in IDLE starts the fill. -/
def cacheReady (s : State) (c : CacheId) (pa : Word) (mode : AccessMode) : Bool × State :=
  if (s.cache c).ctrl ≠ .idle then (false, s)
  else
    match lookup s c pa with
    | some _ => (true, s)
    | none => (false, startMiss s c pa mode)

/-! ### Authoritative access (R119, R145, R146) -/

/-- The place of the byte, halfword or word at an aligned `pa` in its word: how many bits lie below it (R119). R119 gives
places to aligned addresses alone, and `laneOrDraw` and `mergeOrDraw` ask for no other. -/
def laneShift (e : Endian) (w : Width) (pa : Word) : Nat :=
  let k := (pa &&& 3#32).toNat
  match e with
  | .big => 8 * (4 - w.bytes - k)
  | .little => 8 * k

/-- The n bytes at `pa` out of their word (R119). -/
def laneRead (e : Endian) (w : Width) (pa word : Word) : Word := w.truncate (word >>> laneShift e w pa)

/-- The word with the n bytes at `pa` replaced (R146). -/
def laneWrite (e : Endian) (w : Width) (pa word v : Word) : Word :=
  (word &&& ~~~(w.truncate 0xFFFFFFFF#32 <<< laneShift e w pa)) ||| (w.truncate v <<< laneShift e w pa)

/-- What a read gives of its word: the n bytes at `pa` (R145); at a misaligned `pa`, to which R119 gives no lane, a draw
(log entry 16). -/
def laneOrDraw (s : State) (w : Width) (pa word : Word) : Word :=
  if aligned pa w then laneRead s.cfg.endian w pa word else w.truncate s.freeWord

/-- What a write leaves of its word: the n bytes at `pa` replaced (R146); at a misaligned `pa` a draw (log entry 16). -/
def mergeOrDraw (s : State) (w : Width) (pa word v : Word) : Word :=
  if aligned pa w then laneWrite s.cfg.endian w pa word v else s.freeWord

/-- How many draws a cached access at `pa` makes. -/
def laneDraws (w : Width) (pa : Word) : Nat := if aligned pa w then 0 else 1

/-- cache_read (R145): the value and the state after; the all-ones sentinel where no line matches. -/
def cacheRead (s : State) (c : CacheId) (pa : Word) (w : Width) : Word × State :=
  let g := s.cfg.geom c
  match lookup s c pa with
  | some way =>
    let k := s.cache c
    let l := k.line g way (g.index pa)
    (laneOrDraw s w pa (l.data.getD (g.wordIndex pa) 0#32),
     (s.drew (laneDraws w pa)).setCache c { k.setLine g way (g.index pa) { l with lastAccess := s.cycle } with hits := k.hits + 1 })
  | none => (w.truncate 0xFFFFFFFF#32, s)

/-- cache_write (R146): the bytes merged into the line, which becomes dirty; dropped where no line matches. -/
def cacheWrite (s : State) (c : CacheId) (pa : Word) (w : Width) (v : Word) : State :=
  let g := s.cfg.geom c
  match lookup s c pa with
  | some way =>
    let k := s.cache c
    let l := k.line g way (g.index pa)
    let j := g.wordIndex pa
    (s.drew (laneDraws w pa)).setCache c
      { k.setLine g way (g.index pa)
          { l with data := l.data.set j (mergeOrDraw s w pa (l.data.getD j 0#32) v), dirty := true,
                   lastAccess := s.cycle } with
        hits := k.hits + 1 }
  | none => s

/-! ### Controller state machine (R147 to R150) -/

/-- Entry actions (R148): the bus, the victim of a fill invalid and clean, one request per word. -/
def enterTxn (s : State) (c : CacheId) (t : Txn) : State :=
  match acquireBus s t.client with
  | (false, _) => s
  | (true, s1) =>
    let g := s1.cfg.geom c
    let k := s1.cache c
    let k1 := { k with txn := some { t with entered := true } }
    let k2 := if k.ctrl = .fetch then k1.updLine g t.way t.index fun l => { l with valid := false, dirty := false } else k1
    requestWords (s1.setCache c k2) t.addr t.mode t.client g.words

/-- Completion (R150), after the bus is released. -/
def finishTxn (s : State) (c : CacheId) (t : Txn) : State :=
  let g := s.cfg.geom c
  let k := s.cache c
  match k.ctrl with
  | .idle => s
  | .fetch =>
    s.setCache c { k.updLine g t.way t.index fun l =>
        { l with tag := g.tag t.addr, valid := true, dirty := false, lastAccess := s.cycle } with
      ctrl := .idle, txn := none }
  | .writeback =>
    let k1 := k.updLine g t.way t.index fun l => { l with dirty := false }
    match t.thenFill with
    | some f => s.setCache c { k1 with ctrl := .fetch, txn := some (fillTxn g c f) }
    | none => s.setCache c { k1 with ctrl := .idle, txn := none }
  | .opWriteback =>
    s.setCache c { k.updLine g t.way t.index fun l =>
        { l with dirty := false, valid := l.valid && !t.invalidate } with
      ctrl := .idle, txn := none }

/-- Move the next word (R149): memory to the line for a fill, the line to memory for a writeback. -/
def moveWord (s : State) (c : CacheId) (t : Txn) (a : Word) : State :=
  let g := s.cfg.geom c
  let k := s.cache c
  if k.ctrl = .fetch then
    let (v, s1) := mapperFetch s a .word t.client
    s1.setCache c (k.updLine g t.way t.index fun l => { l with data := l.data.set t.next v })
  else mapperStore s a .word ((k.line g t.way t.index).data.getD t.next 0#32) t.client

/-- Count the moved word; on the last one release the bus and complete (R149, R150). -/
def countWord (s : State) (c : CacheId) (t : Txn) : Out :=
  let t1 := { t with next := t.next + 1, remaining := t.remaining - 1 }
  let s1 := s.setCache c { s.cache c with txn := some t1 }
  if t1.remaining = 0 then andThen (releaseBus s1 t.client) fun s2 => .next (finishTxn s2 c t1) else .next s1

/-- Transfer step (R149): one word if the Mapper has it ready; an unmapped word is refused (R115). -/
def transferWord (s : State) (c : CacheId) (t : Txn) : Out :=
  let a := t.addr + BitVec.ofNat 32 (4 * t.next)
  if mapped s.cfg a then
    match pollReady s with
    | (false, s1) => .next s1
    | (true, s1) =>
      countWord (retireRequest (moveWord s1 c t a) { addr := a, mode := t.mode, client := t.client }) c t
  else .refused .lineUnmapped

/-- step(c) (R147). -/
def stepCache (s : State) (c : CacheId) : Out :=
  if (s.cache c).ctrl = .idle then .next s
  else
    match (s.cache c).txn with
    | none => .next s
    | some t => if t.entered then transferWord s c t else .next (enterTxn s c t)

/-! ### Software cache operations (R160 to R163) -/

/-- What a value of CACHE's op field does (R160). -/
inductive CacheAction where
  | noOp
  | hitInvalidate (c : CacheId)
  | hitWriteback (c : CacheId)
  | hitWbInvalidate (c : CacheId)
  deriving DecidableEq, Repr

/-- The table of R160: every other value, the index-based ones included, is a documented no-op. -/
def cacheAction (op : Nat) : CacheAction :=
  if op = 0x10 then .hitInvalidate .icache
  else if op = 0x11 then .hitInvalidate .dcache
  else if op = 0x15 then .hitWbInvalidate .dcache
  else if op = 0x19 then .hitWriteback .dcache
  else .noOp

/-- hit_invalidate (R161). -/
def opHitInvalidate (s : State) (c : CacheId) (pa : Word) : State :=
  let g := s.cfg.geom c
  match lookup s c pa with
  | some w => s.setCache c ((s.cache c).updLine g w (g.index pa) fun l => { l with valid := false, dirty := false })
  | none => s

/-- hit_writeback (R162). -/
def opHitWriteback (s : State) (c : CacheId) (pa : Word) : State :=
  let g := s.cfg.geom c
  let k := s.cache c
  match lookup s c pa with
  | some w =>
    if (k.line g w (g.index pa)).dirty then
      s.setCache c { k with ctrl := .opWriteback,
                            txn := some (writebackTxn g c (g.lineBase pa) w (g.index pa) false none) }
    else s
  | none => s

/-- hit_wb_invalidate (R163). -/
def opHitWbInvalidate (s : State) (c : CacheId) (pa : Word) : State :=
  let g := s.cfg.geom c
  let k := s.cache c
  match lookup s c pa with
  | some w =>
    if (k.line g w (g.index pa)).dirty then
      s.setCache c { k with ctrl := .opWriteback,
                            txn := some (writebackTxn g c (g.lineBase pa) w (g.index pa) true none) }
    else s.setCache c (k.updLine g w (g.index pa) fun l => { l with valid := false })
  | none => s

/-- The cache an operation acts on, none for a no-op. -/
def CacheAction.target : CacheAction → Option CacheId
  | .noOp => none
  | .hitInvalidate c | .hitWriteback c | .hitWbInvalidate c => some c

/-- Perform an operation at a physical address. -/
def CacheAction.perform (a : CacheAction) (s : State) (pa : Word) : State :=
  match a with
  | .noOp => s
  | .hitInvalidate c => opHitInvalidate s c pa
  | .hitWriteback c => opHitWriteback s c pa
  | .hitWbInvalidate c => opHitWbInvalidate s c pa

end Sys2Proof.Machine
end

