-- ==== Sys2Proof/Machine/Access.lean ====
section
/-! DEFINITION. Address translation and the memory path of loads, stores, CACHE and fetch (spec/20_memory.md R105, R107,
R120 to R123, R130). -/

namespace Sys2Proof.Machine

/-- What address translation gives (R107). -/
structure AtResult where
  pa        : Option Word
  cacheable : Bool
  recs      : List ExcRecord
  deriving DecidableEq, Repr

/-- The cache an access of this mode goes through (R107). -/
def cacheOfMode : AccessMode → CacheId
  | .fetch => .icache
  | .load | .store | .any => .dcache

/-- The user-mode check of va[31] (R105). -/
def userCheck (s : State) (va bad : Word) (mode : AccessMode) : List ExcRecord :=
  if s.userMode && va.msb then [{ kind := .addrErr, mode := mode, badVAddr := bad }] else []

/-- The segment map (R104): the physical address, whether it is cacheable, and Translate's records. -/
def segmentMap (s : State) (va bad : Word) (mode : AccessMode) : AtResult :=
  if va.extractLsb' 29 3 = 0b100#3 then { pa := some (va - 0x80000000#32), cacheable := true, recs := [] }
  else if va.extractLsb' 29 3 = 0b101#3 then { pa := some (va - 0xA0000000#32), cacheable := false, recs := [] }
  else
    match translate s.cfg va mode with
    | .ok pa c => { pa := some pa, cacheable := c, recs := [] }
    | .tlbFault refill =>
      { pa := none, cacheable := false, recs := [{ kind := .tlb, mode := mode, badVAddr := bad, refill := refill }] }
    | .modFault => { pa := none, cacheable := false, recs := [{ kind := .mod, mode := .store, badVAddr := bad }] }

/-- The record of an address that is not Mapped (R107). -/
def mappedCheck (s : State) (pa : Option Word) (mode : AccessMode) : List ExcRecord :=
  match pa with
  | none => []
  | some a =>
    if mapped s.cfg a then []
    else if mode = .fetch then [{ kind := .ibe, mode := .fetch }]
    else [{ kind := .dbe, mode := mode }]

/-- AT(va, mode) (R107). `bad` is the address its records carry: `va` itself, but for LWL, LWR, SWL and SWR the
instruction's own effective address (R123). -/
def addressTranslate (s : State) (va bad : Word) (mode : AccessMode) : AtResult :=
  let m := segmentMap s va bad mode
  { pa := m.pa
    cacheable := m.cacheable && s.cfg.present (cacheOfMode mode)
    recs := userCheck s va bad mode ++ m.recs ++ mappedCheck s m.pa mode }

/-- AT with the Mapped check left out, for CACHE (spec/42_load_store.md R397). -/
def addressTranslateUnchecked (s : State) (va : Word) (mode : AccessMode) : AtResult :=
  let m := segmentMap s va va mode
  { m with recs := userCheck s va va mode ++ m.recs }

/-- The alignment check (R122). -/
def alignCheck (va : Word) (w : Width) (mode : AccessMode) : List ExcRecord :=
  if aligned va w then [] else [{ kind := .addrErr, mode := mode, badVAddr := va }]

/-- How an access of the MEM step ends (R120): records appended and nothing performed, to be retried, or performed. -/
inductive Access where
  | faulted (s : State)
  | stall (s : State)
  | done (v : Word) (s : State)

/-- Append records to the MEM slot's buffer. -/
def State.raiseMem (s : State) (recs : List ExcRecord) : State := s.setMem (s.pipe.mem.raise recs)

/-- The read at a physical address (R120): through DCACHE once it is ready, else one Mapper call, whose address error
becomes a record with `bad` (R110). -/
def readAt (s : State) (pa : Word) (cacheable : Bool) (w : Width) (bad : Word) : Access :=
  if cacheable then
    match cacheReady s .dcache pa .load with
    | (false, t) => .stall t
    | (true, t) => let (v, u) := cacheRead t .dcache pa w; .done v u
  else
    match mapperError pa w .load bad with
    | [] => let (v, t) := mapperFetch s pa w .dcache; .done v t
    | r :: rs => .faulted (s.raiseMem (r :: rs))

/-- MemRead(va, n, load) (R120); `bad` as in `addressTranslate`. -/
def memRead (s : State) (va bad : Word) (w : Width) : Access :=
  let at_ := addressTranslate s va bad .load
  let t := s.raiseMem (alignCheck va w .load ++ at_.recs)
  if t.pipe.mem.exc ≠ [] then .faulted t
  else
    match at_.pa with
    | none => .faulted t
    | some pa => readAt t pa at_.cacheable w bad

/-- One store a store instruction makes: its virtual address, width and value. -/
structure StoreItem where
  va    : Word
  width : Width
  value : Word
  deriving DecidableEq, Repr

/-- A store after translation. -/
structure StoreTarget where
  pa        : Word
  cacheable : Bool
  width     : Width
  value     : Word
  deriving DecidableEq, Repr

/-- The records of a store's checks (R121, R123; log entry 13). -/
def storeRecs (s : State) (bad : Word) (items : List StoreItem) : List ExcRecord :=
  items.flatMap fun i => alignCheck i.va i.width .store ++ (addressTranslate s i.va bad .store).recs

/-- Where one store goes (R107); only meaningful when its checks passed. -/
def storeTarget (s : State) (bad : Word) (i : StoreItem) : StoreTarget :=
  let at_ := addressTranslate s i.va bad .store
  { pa := at_.pa.getD 0#32, cacheable := at_.cacheable, width := i.width, value := i.value }

/-- The Mapper's address errors on the uncached stores (R110, R111). -/
def storeErrors (bad : Word) (ts : List StoreTarget) : List ExcRecord :=
  ts.flatMap fun t => if t.cacheable then [] else mapperError t.pa t.width .store bad

/-- Readiness of every line the stores go to (R123). -/
def storesReady (s : State) : List StoreTarget → Bool × State
  | [] => (true, s)
  | t :: ts =>
    if t.cacheable then
      match cacheReady s .dcache t.pa .store with
      | (false, u) => (false, u)
      | (true, u) => storesReady u ts
    else storesReady s ts

/-- Perform one store (R121). -/
def storeAt (s : State) (t : StoreTarget) : State :=
  if t.cacheable then cacheWrite s .dcache t.pa t.width t.value else mapperStore s t.pa t.width t.value .dcache

/-- Perform the stores in order. -/
def storeAll (s : State) : List StoreTarget → State
  | [] => s
  | t :: ts => storeAll (storeAt s t) ts

/-- The stores at their physical addresses (R121): none if the Mapper has an error for one, else once every line is
ready. -/
def writeAt (s : State) (bad : Word) (targets : List StoreTarget) : Access :=
  match storeErrors bad targets with
  | [] =>
    match storesReady s targets with
    | (false, u) => .stall u
    | (true, u) => .done 0#32 (storeAll u targets)
  | r :: rs => .faulted (s.raiseMem (r :: rs))

/-- MemWrite (R121), and the all-or-none set of byte writes of SWL and SWR (R123). -/
def memWrite (s : State) (bad : Word) (items : List StoreItem) : Access :=
  let t := s.raiseMem (storeRecs s bad items)
  if t.pipe.mem.exc ≠ [] then .faulted t else writeAt t bad (items.map (storeTarget s bad))

/-- How a fetch ends (R130). -/
inductive Fetched where
  | word (w : Word) (s : State)
  | notReady (s : State)
  | faulted (recs : List ExcRecord) (s : State)

/-- Fetch(va) (R130), checked under SR as it stands at this IF step (spec/70_reset_and_hazards.md R523 item 7, R562). -/
def fetchWord (s : State) (va : Word) : Fetched :=
  let at_ := addressTranslate s va va .fetch
  let recs := alignCheck va .word .fetch ++ at_.recs
  match recs, at_.pa with
  | r :: rs, _ => .faulted (r :: rs) s
  | [], none => .faulted [] s
  | [], some pa =>
    if at_.cacheable then
      match cacheReady s .icache pa .fetch with
      | (false, t) => .notReady t
      | (true, t) => let (v, u) := cacheRead t .icache pa .word; .word v u
    else
      match mapperError pa .word .fetch va with
      | [] => let (v, t) := mapperFetch s pa .word .icache; .word v t
      | r :: rs => .faulted (r :: rs) s

end Sys2Proof.Machine
end

