-- ==== Sys2Proof/Machine/Flags.lean ====
section
/-! DEFINITION. The block has no flags or condition codes (spec/10_state.md R33). What stands in their place: the
overflow tests that trap (spec/40_alu.md R301), the comparisons that write 0 or 1 (R308 to R311), and the branch
conditions (spec/41_control_transfer.md R356 to R363). -/

namespace Sys2Proof.Machine

/-- Signed overflow of a + b (R301). -/
def overflowAdd (a b : Word) : Bool := a.msb == b.msb && (a + b).msb != a.msb

/-- Signed overflow of a - b (R301). -/
def overflowSub (a b : Word) : Bool := a.msb != b.msb && (a - b).msb != a.msb

/-- 1 or 0 (R308). -/
def boolWord (b : Bool) : Word := if b then 1#32 else 0#32

/-- x <s y. -/
def ltSigned (x y : Word) : Bool := x.slt y

/-- x <u y. -/
def ltUnsigned (x y : Word) : Bool := x.ult y

/-- BLEZ's condition (R358). -/
def lessEqZero (x : Word) : Bool := x == 0#32 || x.msb

/-- BGTZ's condition (R359). -/
def greaterZero (x : Word) : Bool := x != 0#32 && !x.msb

/-- BLTZ's condition (R360). -/
def lessZero (x : Word) : Bool := x.msb

/-- BGEZ's condition (R361). -/
def greaterEqZero (x : Word) : Bool := !x.msb

end Sys2Proof.Machine
end

