-- ==== Sys2Proof/Machine/Operands.lean ====
section
/-! DEFINITION. The decoder's outputs per instruction (spec/30_encoding.md R205, R210, R217), the coprocessor-usable
check (spec/43_system.md R420), and the forwarding unit: tags, load-use hazard, late-bound values
(spec/70_reset_and_hazards.md R533 to R536). -/

namespace Sys2Proof.Machine

/-! ### Immediates (R205) -/

/-- sext_32(instr[15:0]). -/
def sext16 (imm : BitVec 16) : Word := imm.signExtend 32

/-- zext_32(instr[15:0]). -/
def zext16 (imm : BitVec 16) : Word := imm.zeroExtend 32

/-- instr[15:0] ++ 0x0000. -/
def upper16 (imm : BitVec 16) : Word := imm ++ 0x0000#16

/-- sext_32(instr[15:0]) << 2, a branch's byte offset. -/
def branchOffset (imm : BitVec 16) : Word := sext16 imm <<< 2

/-- zext_32(instr[25:0]) << 2, a jump's region offset. -/
def jumpOffset (target : BitVec 26) : Word := target.zeroExtend 32 <<< 2

/-! ### Decoder outputs (R217) -/

/-- What the decoder produces for one instruction (R210). `imm` is zero where R205's table lists no immediate, and `shamt`
where the instruction has no shift amount (log entry 10). -/
structure DecodeOut where
  src1     : Selector := .none
  src2     : Selector := .none
  dest     : Selector := .none
  useShamt : Bool := false
  immSext  : Bool := false
  memRead  : Bool := false
  memWrite : Bool := false
  reserved : Bool := false
  imm      : Word := 0#32
  shamt    : Word := 0#32
  deriving DecidableEq, Repr

/-- The row of SLL, SRL, SRA. -/
def outShift (rt rd : Reg) (shamt : Nat) : DecodeOut :=
  { src2 := .reg rt, dest := .reg rd, useShamt := true, imm := BitVec.ofNat 32 shamt, shamt := BitVec.ofNat 32 shamt }

/-- The row of the three-register instructions. -/
def outThree (rs rt rd : Reg) : DecodeOut := { src1 := .reg rs, src2 := .reg rt, dest := .reg rd }

/-- The row of MULT, MULTU, DIV, DIVU. -/
def outTwo (rs rt : Reg) : DecodeOut := { src1 := .reg rs, src2 := .reg rt }

/-- The row of ADDI, ADDIU, SLTI, SLTIU. -/
def outSigned (rs rt : Reg) (imm : BitVec 16) : DecodeOut :=
  { src1 := .reg rs, dest := .reg rt, immSext := true, imm := sext16 imm }

/-- The row of ANDI, ORI, XORI. -/
def outZero (rs rt : Reg) (imm : BitVec 16) : DecodeOut := { src1 := .reg rs, dest := .reg rt, imm := zext16 imm }

/-- The row of BLTZ, BGEZ, BLEZ, BGTZ; with ReturnAddress as destination the row of BLTZAL, BGEZAL. -/
def outBranch (rs : Reg) (dest : Selector) (offset : BitVec 16) : DecodeOut :=
  { src1 := .reg rs, dest := dest, immSext := true, imm := branchOffset offset }

/-- The row of BEQ, BNE. -/
def outCompare (rs rt : Reg) (offset : BitVec 16) : DecodeOut :=
  { src1 := .reg rs, src2 := .reg rt, immSext := true, imm := branchOffset offset }

/-- The row of LB, LH, LW, LBU, LHU. -/
def outLoad (base rt : Reg) (offset : BitVec 16) : DecodeOut :=
  { src1 := .reg base, dest := .reg rt, immSext := true, memRead := true, imm := sext16 offset }

/-- The row of LWL, LWR. -/
def outMerge (base rt : Reg) (offset : BitVec 16) : DecodeOut :=
  { src1 := .reg base, src2 := .reg rt, dest := .reg rt, immSext := true, memRead := true, imm := sext16 offset }

/-- The row of SB, SH, SW, SWL, SWR. -/
def outStore (base rt : Reg) (offset : BitVec 16) : DecodeOut :=
  { src1 := .reg base, src2 := .reg rt, immSext := true, memWrite := true, imm := sext16 offset }

/-- The row of CACHE and of LWC1 to LWC3, SWC1 to SWC3. -/
def outAddress (base : Reg) (offset : BitVec 16) : DecodeOut :=
  { src1 := .reg base, immSext := true, imm := sext16 offset }

/-- The decoder's outputs for every instruction (R217). -/
def decodeOut : Instr → DecodeOut
  | .sll rt rd shamt | .srl rt rd shamt | .sra rt rd shamt => outShift rt rd shamt
  | .sllv rs rt rd | .srlv rs rt rd | .srav rs rt rd => outThree rs rt rd
  | .jr rs => { src1 := .reg rs }
  | .jalr rs rd => { src1 := .reg rs, dest := .reg rd }
  | .syscall _ | .brk _ => {}
  | .mfhi rd | .mflo rd => { dest := .reg rd }
  | .mthi rs | .mtlo rs => { src1 := .reg rs }
  | .mult rs rt | .multu rs rt | .div rs rt | .divu rs rt => outTwo rs rt
  | .add rs rt rd | .addu rs rt rd | .sub rs rt rd | .subu rs rt rd => outThree rs rt rd
  | .and rs rt rd | .or rs rt rd | .xor rs rt rd | .nor rs rt rd => outThree rs rt rd
  | .slt rs rt rd | .sltu rs rt rd => outThree rs rt rd
  | .bltz rs offset | .bgez rs offset | .blez rs offset | .bgtz rs offset => outBranch rs .none offset
  | .bltzal rs offset | .bgezal rs offset => outBranch rs .returnAddress offset
  | .j target => { imm := jumpOffset target }
  | .jal target => { dest := .returnAddress, imm := jumpOffset target }
  | .beq rs rt offset | .bne rs rt offset => outCompare rs rt offset
  | .addi rs rt imm | .addiu rs rt imm | .slti rs rt imm | .sltiu rs rt imm => outSigned rs rt imm
  | .andi rs rt imm | .ori rs rt imm | .xori rs rt imm => outZero rs rt imm
  | .lui rt imm => { dest := .reg rt, imm := upper16 imm }
  | .lb base rt offset | .lh base rt offset | .lw base rt offset | .lbu base rt offset | .lhu base rt offset =>
    outLoad base rt offset
  | .lwl base rt offset | .lwr base rt offset => outMerge base rt offset
  | .sb base rt offset | .sh base rt offset | .swl base rt offset | .sw base rt offset | .swr base rt offset =>
    outStore base rt offset
  | .cache base _ offset => outAddress base offset
  | .mfc0 rt _ => { dest := .reg rt }
  | .mtc0 rt _ => { src2 := .reg rt }
  | .tlbr | .tlbwi | .tlbwr | .tlbp | .rfe => {}
  | .cop1 _ | .cop2 _ | .cop3 _ => {}
  | .lwc1 base _ offset | .lwc2 base _ offset | .lwc3 base _ offset => outAddress base offset
  | .swc1 base _ offset | .swc2 base _ offset | .swc3 base _ offset => outAddress base offset

/-- The decoder's outputs for a reserved word (R217, R218). -/
def reservedOut : DecodeOut := { reserved := true }

/-! ### Coprocessor-usable check (spec/43_system.md R420, spec/42_load_store.md R397) -/

/-- The coprocessor whose usability an instruction's ID step checks: 0 for COP0 and CACHE, z for COPz, LWCz, SWCz. -/
def copNeeded : Instr → Option (BitVec 2)
  | .mfc0 .. | .mtc0 .. | .tlbr | .tlbwi | .tlbwr | .tlbp | .rfe | .cache .. => some 0#2
  | .cop1 .. | .lwc1 .. | .swc1 .. => some 1#2
  | .cop2 .. | .lwc2 .. | .swc2 .. => some 2#2
  | .cop3 .. | .lwc3 .. | .swc3 .. => some 3#2
  | .sll .. | .srl .. | .sra .. | .sllv .. | .srlv .. | .srav .. | .jr .. | .jalr .. | .syscall .. | .brk .. | .mfhi ..
  | .mthi .. | .mflo .. | .mtlo .. | .mult .. | .multu .. | .div .. | .divu .. | .add .. | .addu .. | .sub .. | .subu ..
  | .and .. | .or .. | .xor .. | .nor .. | .slt .. | .sltu .. | .bltz .. | .bgez .. | .bltzal .. | .bgezal .. | .j .. | .jal ..
  | .beq .. | .bne .. | .blez .. | .bgtz .. | .addi .. | .addiu .. | .slti .. | .sltiu .. | .andi .. | .ori .. | .xori ..
  | .lui .. | .lb .. | .lh .. | .lwl .. | .lw .. | .lbu .. | .lhu .. | .lwr .. | .sb .. | .sh .. | .swl .. | .sw .. | .swr .. =>
    none

/-- Whether coprocessor z is usable: coprocessor 0 always in kernel mode, else as SR.CU[z] says (R420). -/
def copAllowed (s : State) (z : BitVec 2) : Bool := (z == 0#2 && !s.userMode) || s.copUsable z

/-- The CpU record of the check, none if it passes. -/
def copCheck (s : State) : Option (BitVec 2) → List ExcRecord
  | none => []
  | some z => if copAllowed s z then [] else [{ kind := .cpu, mode := .any, cop := z }]

/-! ### Forwarding (spec/70_reset_and_hazards.md R533 to R536) -/

/-- The forwarding tag of a register source (R533): the youngest older writer in EX, MEM, WB; r0 is never forwarded. -/
def forwardTag (p : Pipeline) (r : Reg) : OperandSource :=
  if r = 0 then .architectural 0
  else if p.ex.destReg = some r then .forwarded .execute r
  else if p.mem.destReg = some r then .forwarded .memory r
  else if p.wb.destReg = some r then .forwarded .writeback r
  else .architectural r

/-- The operand source of a register selector; no source reads as r0 (log entry 10). -/
def sourceOf (p : Pipeline) : Selector → OperandSource
  | .reg r => forwardTag p r
  | .returnAddress => forwardTag p 31
  | .none => .architectural 0

/-- opA (spec/30_encoding.md R210). -/
def operandA (p : Pipeline) (d : DecodeOut) : OperandSource :=
  if d.useShamt then .shiftAmount d.shamt else sourceOf p d.src1

/-- opB (spec/30_encoding.md R210). -/
def operandB (p : Pipeline) (d : DecodeOut) : OperandSource :=
  match d.src2 with
  | .none => .immediate d.imm
  | .reg r => sourceOf p (.reg r)
  | .returnAddress => sourceOf p .returnAddress

/-- One for a source that the forwarding unit flags as a load-use hazard (R535). -/
def loadUse (p : Pipeline) : OperandSource → Nat
  | .forwarded .execute _ => if p.ex.memRead then 1 else 0
  | .forwarded .decode _ | .forwarded .memory _ | .forwarded .writeback _ => 0
  | .architectural _ | .immediate _ | .shiftAmount _ => 0

/-- The forwarding mux (R536): a producer tagged in EX is in the MEM slot when its consumer executes; any other has
committed, and the register file holds its result, or what a debugger's write_gpr has since put there (DESIGN CHOICE, log
entry 18). -/
def operandValue (s : State) : OperandSource → Word
  | .architectural r => readGpr s r
  | .immediate v => v
  | .shiftAmount v => v
  | .forwarded .execute r => if s.pipe.mem.destReg = some r then s.pipe.mem.result else readGpr s r
  | .forwarded .decode r | .forwarded .memory r | .forwarded .writeback r => readGpr s r

end Sys2Proof.Machine
end

