-- ==== Sys2Proof/Machine/Stages.lean ====
section
/-! DEFINITION. The work of one instruction in each stage, shared by every meaning: the ID step
(spec/70_reset_and_hazards.md R532), the EX step and its guard (R540, R541), the MEM step with the interrupt sample
(R543, spec/60_exceptions.md R462), the WB step (R548). A meaning is one instruction's four stage works put together by
`byStage`; the pipeline (Machine/Pipeline.lean) runs the instruction of each slot with `active` naming the stage. -/

namespace Sys2Proof.Machine

/-- Run the work of the stage the cycle is at. -/
def byStage (s : State) (dec ex mem wb : State → Out) : Out :=
  match s.active with
  | .decode => dec s
  | .execute => ex s
  | .memory => mem s
  | .writeback => wb s

/-! ### ID (R532) -/

/-- The ID slot's snapshot after decoding: the decoder's outputs, the ID check's record, the operand tags. -/
def decodedSnapshot (s : State) (d : DecodeOut) (recs : List ExcRecord) : Snapshot :=
  { s.pipe.dec.raise recs with
    src1 := d.src1, src2 := d.src2, dest := d.dest, useShamt := d.useShamt, immSext := d.immSext,
    memRead := d.memRead, memWrite := d.memWrite, reserved := d.reserved, imm := d.imm,
    opA := operandA s.pipe d, opB := operandB s.pipe d }

/-- The ID step with decoder outputs `d` and the records of its checks (R532, R535). -/
def decodeStep (d : DecodeOut) (recs : List ExcRecord) (s : State) : Out :=
  .next { s.setDec (decodedSnapshot s d recs) with
    loadUseEvents := s.loadUseEvents + loadUse s.pipe (operandA s.pipe d) + loadUse s.pipe (operandB s.pipe d) }

/-- The ID step of an instruction: the usable check is its only one (R532; a decoded instruction is not reserved). -/
def idStage (i : Instr) (s : State) : Out := decodeStep (decodeOut i) (copCheck s (copNeeded i)) s

/-! ### EX (R540) -/

/-- The EX slot's snapshot with its operand values resolved (R536). -/
def resolved (s : State) : Snapshot :=
  { s.pipe.ex with valA := operandValue s s.pipe.ex.opA, valB := operandValue s s.pipe.ex.opB }

/-- The EX guard (R540): the instruction holds no record and neither does the one ahead of it in MEM. -/
def exGuard (s : State) : Bool := s.pipe.ex.exc.isEmpty && s.pipe.mem.exc.isEmpty

/-- The EX step: resolve, compute, and under the guard perform the effect (R540). -/
def exStage (compute : State → Snapshot → Snapshot) (effect : Snapshot → State → Out) (s : State) : Out :=
  let x := compute s (resolved s)
  let t := s.setEx x
  if exGuard t then effect x t else .next t

/-- No EX effect. -/
def noEffect (_ : Snapshot) (s : State) : Out := .next s

/-- Nothing computed. -/
def noCompute (_ : State) (x : Snapshot) : Snapshot := x

/-- A result computed from the two operand values. -/
def resultOf (f : Word → Word → Word) (_ : State) (x : Snapshot) : Snapshot := { x with result := f x.valA x.valB }

/-- The effective address, and the value a store, LWL and LWR keep (spec/42_load_store.md R380, R534). That LB, LBU, LH,
LHU, LW and CACHE keep valB, their immediate, in the same field is the model's (DESIGN CHOICE, log entry 17); nothing reads
it there. -/
def addressOf (_ : State) (x : Snapshot) : Snapshot := { x with ea := x.valA + x.imm, storeData := x.valB }

/-- Mark the EX slot's instruction as one that changed HI, LO or CP0 (R540). -/
def State.markSideEffect (s : State) : State := s.setEx { s.pipe.ex with exSideEffect := true }

/-- A taken control transfer (R541, spec/41_control_transfer.md R350): the fetch register and the two younger slots. -/
def redirect (target : Word) (s : State) : State :=
  { s with pc := target, pipe := { s.pipe with dec := {}, fetch := {} } }

/-! ### MEM (R543, spec/60_exceptions.md R462) -/

/-- The interrupt sample at the start of a MEM step. -/
def sampleInterrupt (s : State) : State :=
  if !s.intShadow && !s.pipe.mem.exSideEffect && !s.pipe.mem.memIssued && intCond s then
    s.raiseMem [{ kind := .int, mode := .any }]
  else s

/-- How the MEM work of an instruction ends: to be retried, or done. -/
inductive MemWork where
  | stall (s : State)
  | done (s : State)

/-- The MEM step: sample, work, and unless it stalls the int_shadow update; `isRfe` of the instruction. -/
def memStep (isRfe : Bool) (work : State → MemWork) (s : State) : Out :=
  match work (sampleInterrupt s) with
  | .stall t => .next { t with stall := true }
  | .done t =>
    .next { t with
      stall := false
      intShadow :=
        if isRfe && t.pipe.mem.exSideEffect then true else if s.intShadow then false else t.intShadow }

/-- The MEM work of an instruction that accesses nothing. -/
def noAccess (s : State) : MemWork := .done s

/-- The MEM step of such an instruction. -/
def memPass : State → Out := memStep false noAccess

/-- A load's MEM work: a performed read becomes the result (R543). -/
def loadWork (read : State → Access) (extend : State → Snapshot → Word → Word) (s : State) : MemWork :=
  match read s with
  | .faulted t => .done t
  | .stall t => .stall t
  | .done v t => .done (t.setMem { t.pipe.mem with result := extend t t.pipe.mem v })

/-- A store's MEM work. -/
def storeWork (write : State → Access) (s : State) : MemWork :=
  match write s with
  | .faulted t => .done t
  | .stall t => .stall t
  | .done _ t => .done t

/-! ### WB (R548) -/

/-- Whether the commit of the instruction at `pc` ends the run (R570): `pc` is HALT_PC. -/
def haltsAt (s : State) (pc : Word) : Bool :=
  match s.cfg.haltPc with
  | some h => h == pc
  | none => false

/-- The end of a run (R570): the commit of the instruction at HALT_PC. -/
def haltCheck (s : State) (pc : Word) : State := { s with halted := s.halted || haltsAt s pc }

/-- Commit (R548): the destination register gets the result; r0 is never written. -/
def commit (s : State) (x : Snapshot) : State :=
  match x.dest.destReg with
  | some r => haltCheck (writeGpr s r x.result) x.pc
  | none => haltCheck s x.pc

/-- The WB step: an instruction that holds a record takes the exception, any other commits (R548). -/
def wbStage (s : State) : Out :=
  match selectRecord s.pipe.wb.exc with
  | some r => .next (takeException s s.pipe.wb.pc r)
  | none => .next (commit s s.pipe.wb)

/-! ### Words that are no instruction (R453, R454, R455) -/

/-- The record of a reserved word's ID step: CpU(0) for a COP0 word that fails the usable check, else RI (R455, R430). -/
def reservedCheck (s : State) (w : Word) : List ExcRecord :=
  if opOf w = 0x10#6 ∧ copAllowed s 0#2 = false then [{ kind := .cpu, mode := .any, cop := 0#2 }]
  else [{ kind := .ri, mode := .any }]

/-- The stage works of a reserved word: it raises in ID, does nothing in EX and MEM, and takes its exception at WB. -/
def reservedWord (s : State) : Out :=
  byStage s (fun t => decodeStep reservedOut (reservedCheck t t.pipe.dec.instr) t) (exStage noCompute noEffect) memPass wbStage

end Sys2Proof.Machine
end

