-- ==== Sys2Proof/Machine/Arith.lean ====
section
/-! DEFINITION. Add, subtract and set-on-less-than (spec/40_alu.md R302 to R311). -/

namespace Sys2Proof.Machine

/-- An ALU instruction that cannot raise: result in EX, register at WB (R300). -/
def aluInstr (i : Instr) (f : Word → Word → Word) (s : State) : Out :=
  byStage s (idStage i) (exStage (resultOf f) noEffect) memPass wbStage

/-- A result with an overflow test: Ov(any) when it overflows (R301). -/
def trapOf (f : Word → Word → Word) (overflow : Word → Word → Bool) (s : State) (x : Snapshot) : Snapshot :=
  (resultOf f s x).raise (if overflow x.valA x.valB then [{ kind := .ov, mode := .any }] else [])

/-- An ALU instruction that traps on signed overflow (R301). -/
def trapInstr (i : Instr) (f : Word → Word → Word) (overflow : Word → Word → Bool) (s : State) : Out :=
  byStage s (idStage i) (exStage (trapOf f overflow) noEffect) memPass wbStage

/-- ADD (R302). -/
def execAdd (rs rt rd : Reg) (s : State) : Out := trapInstr (.add rs rt rd) (fun a b => a + b) overflowAdd s

/-- ADDU (R303). -/
def execAddu (rs rt rd : Reg) (s : State) : Out := aluInstr (.addu rs rt rd) (fun a b => a + b) s

/-- SUB (R304). -/
def execSub (rs rt rd : Reg) (s : State) : Out := trapInstr (.sub rs rt rd) (fun a b => a - b) overflowSub s

/-- SUBU (R305). -/
def execSubu (rs rt rd : Reg) (s : State) : Out := aluInstr (.subu rs rt rd) (fun a b => a - b) s

/-- ADDI (R306). -/
def execAddi (rs rt : Reg) (imm : BitVec 16) (s : State) : Out :=
  trapInstr (.addi rs rt imm) (fun a b => a + b) overflowAdd s

/-- ADDIU (R307). -/
def execAddiu (rs rt : Reg) (imm : BitVec 16) (s : State) : Out := aluInstr (.addiu rs rt imm) (fun a b => a + b) s

/-- SLT (R308). -/
def execSlt (rs rt rd : Reg) (s : State) : Out := aluInstr (.slt rs rt rd) (fun a b => boolWord (ltSigned a b)) s

/-- SLTU (R309). -/
def execSltu (rs rt rd : Reg) (s : State) : Out := aluInstr (.sltu rs rt rd) (fun a b => boolWord (ltUnsigned a b)) s

/-- SLTI (R310). -/
def execSlti (rs rt : Reg) (imm : BitVec 16) (s : State) : Out :=
  aluInstr (.slti rs rt imm) (fun a b => boolWord (ltSigned a b)) s

/-- SLTIU (R311). -/
def execSltiu (rs rt : Reg) (imm : BitVec 16) (s : State) : Out :=
  aluInstr (.sltiu rs rt imm) (fun a b => boolWord (ltUnsigned a b)) s

end Sys2Proof.Machine
end

