-- ==== Sys2Proof/Machine/Branch.lean ====
section
/-! DEFINITION. Branches and jumps (spec/41_control_transfer.md R350 to R367). Condition, target and link value are
computed in EX; a taken transfer redirects the fetch register and squashes under the guard; the link is written at WB. -/

namespace Sys2Proof.Machine

/-- pc + 4 + imm (spec/30_encoding.md R206). -/
def branchTarget (x : Snapshot) : Word := x.pc + 4#32 + x.imm

/-- (pc + 4)[31:28] ++ target ++ 00 (spec/30_encoding.md R207); the snapshot's imm is target << 2. -/
def jumpTarget (x : Snapshot) : Word := ((x.pc + 4#32) &&& 0xF0000000#32) ||| x.imm

/-- The link value pc + LINK_OFFSET as the result (R352). -/
def linkResult (s : State) (x : Snapshot) : Snapshot := { x with result := x.pc + s.cfg.linkOffset }

/-- Transfer to the target if taken (R350). -/
def transferIf (taken : Snapshot → Bool) (target : Snapshot → Word) (x : Snapshot) (s : State) : Out :=
  .next (if taken x then redirect (target x) s else s)

/-- A transfer that links nothing. -/
def branchInstr (i : Instr) (taken : Snapshot → Bool) (target : Snapshot → Word) (s : State) : Out :=
  byStage s (idStage i) (exStage noCompute (transferIf taken target)) memPass wbStage

/-- A transfer that links, taken or not (R352). -/
def linkInstr (i : Instr) (taken : Snapshot → Bool) (target : Snapshot → Word) (s : State) : Out :=
  byStage s (idStage i) (exStage linkResult (transferIf taken target)) memPass wbStage

/-- BEQ (R356). -/
def execBeq (rs rt : Reg) (offset : BitVec 16) (s : State) : Out :=
  branchInstr (.beq rs rt offset) (fun x => x.valA == x.valB) branchTarget s

/-- BNE (R357). -/
def execBne (rs rt : Reg) (offset : BitVec 16) (s : State) : Out :=
  branchInstr (.bne rs rt offset) (fun x => x.valA != x.valB) branchTarget s

/-- BLEZ (R358). -/
def execBlez (rs : Reg) (offset : BitVec 16) (s : State) : Out :=
  branchInstr (.blez rs offset) (fun x => lessEqZero x.valA) branchTarget s

/-- BGTZ (R359). -/
def execBgtz (rs : Reg) (offset : BitVec 16) (s : State) : Out :=
  branchInstr (.bgtz rs offset) (fun x => greaterZero x.valA) branchTarget s

/-- BLTZ (R360). -/
def execBltz (rs : Reg) (offset : BitVec 16) (s : State) : Out :=
  branchInstr (.bltz rs offset) (fun x => lessZero x.valA) branchTarget s

/-- BGEZ (R361). -/
def execBgez (rs : Reg) (offset : BitVec 16) (s : State) : Out :=
  branchInstr (.bgez rs offset) (fun x => greaterEqZero x.valA) branchTarget s

/-- BLTZAL (R362). -/
def execBltzal (rs : Reg) (offset : BitVec 16) (s : State) : Out :=
  linkInstr (.bltzal rs offset) (fun x => lessZero x.valA) branchTarget s

/-- BGEZAL (R363). -/
def execBgezal (rs : Reg) (offset : BitVec 16) (s : State) : Out :=
  linkInstr (.bgezal rs offset) (fun x => greaterEqZero x.valA) branchTarget s

/-- J (R364). -/
def execJ (target : BitVec 26) (s : State) : Out := branchInstr (.j target) (fun _ => true) jumpTarget s

/-- JAL (R365). -/
def execJal (target : BitVec 26) (s : State) : Out := linkInstr (.jal target) (fun _ => true) jumpTarget s

/-- JR (R366): the target is not checked here (R353). -/
def execJr (rs : Reg) (s : State) : Out := branchInstr (.jr rs) (fun _ => true) (fun x => x.valA) s

/-- JALR (R367): the old x[rs] is the target, whatever rd is. -/
def execJalr (rs rd : Reg) (s : State) : Out := linkInstr (.jalr rs rd) (fun _ => true) (fun x => x.valA) s

end Sys2Proof.Machine
end

