-- ==== Sys2Proof/Machine/LoadStore.lean ====
section
/-! DEFINITION. Loads and stores (spec/42_load_store.md R380 to R396). The effective address is computed in EX, the access
is made in MEM, a load's register is written at WB. -/

namespace Sys2Proof.Machine

/-- ea & ~3. -/
def alignedWord (ea : Word) : Word := ea &&& 0xFFFFFFFC#32

/-- ea[1:0]. -/
def byteInWord (ea : Word) : Nat := (ea &&& 3#32).toNat

/-- A load of `w` at ea, extended by `extend` (R381). -/
def loadInstr (i : Instr) (w : Width) (extend : Word → Word) (s : State) : Out :=
  byStage s (idStage i) (exStage addressOf noEffect)
    (memStep false (loadWork (fun t => memRead t t.pipe.mem.ea t.pipe.mem.ea w) (fun _ _ v => extend v))) wbStage

/-- A load of the aligned word around ea, merged with the old rt (R388, R389); its records carry ea (R123). -/
def mergeInstr (i : Instr) (merge : Endian → Nat → Word → Word → Word) (s : State) : Out :=
  byStage s (idStage i) (exStage addressOf noEffect)
    (memStep false
      (loadWork (fun t => memRead t (alignedWord t.pipe.mem.ea) t.pipe.mem.ea .word)
        (fun t x v => merge t.cfg.endian (byteInWord x.ea) v x.storeData)))
    wbStage

/-- sext_32 of a byte value. -/
def signByte (v : Word) : Word := (v.extractLsb' 0 8).signExtend 32

/-- sext_32 of a halfword value. -/
def signHalf (v : Word) : Word := (v.extractLsb' 0 16).signExtend 32

/-- LB (R383). -/
def execLb (base rt : Reg) (offset : BitVec 16) (s : State) : Out := loadInstr (.lb base rt offset) .byte signByte s

/-- LBU (R384). -/
def execLbu (base rt : Reg) (offset : BitVec 16) (s : State) : Out := loadInstr (.lbu base rt offset) .byte (fun v => v) s

/-- LH (R385). -/
def execLh (base rt : Reg) (offset : BitVec 16) (s : State) : Out := loadInstr (.lh base rt offset) .half signHalf s

/-- LHU (R386). -/
def execLhu (base rt : Reg) (offset : BitVec 16) (s : State) : Out := loadInstr (.lhu base rt offset) .half (fun v => v) s

/-- LW (R387). -/
def execLw (base rt : Reg) (offset : BitVec 16) (s : State) : Out := loadInstr (.lw base rt offset) .word (fun v => v) s

/-- LWL_merge, the table of R390 by byte number k. -/
def lwlMerge (e : Endian) (k : Nat) (w r : Word) : Word :=
  let j := match e with | .big => k | .little => 3 - k
  match j with
  | 0 => w
  | 1 => w.extractLsb' 0 24 ++ r.extractLsb' 0 8
  | 2 => w.extractLsb' 0 16 ++ r.extractLsb' 0 16
  | _ => w.extractLsb' 0 8 ++ r.extractLsb' 0 24

/-- LWR_merge, the table of R390 by byte number k. -/
def lwrMerge (e : Endian) (k : Nat) (w r : Word) : Word :=
  let j := match e with | .big => k | .little => 3 - k
  match j with
  | 0 => r.extractLsb' 8 24 ++ w.extractLsb' 24 8
  | 1 => r.extractLsb' 16 16 ++ w.extractLsb' 16 16
  | 2 => r.extractLsb' 24 8 ++ w.extractLsb' 8 24
  | _ => w

/-- LWL (R388). -/
def execLwl (base rt : Reg) (offset : BitVec 16) (s : State) : Out :=
  mergeInstr (.lwl base rt offset) lwlMerge s

/-- LWR (R389). -/
def execLwr (base rt : Reg) (offset : BitVec 16) (s : State) : Out :=
  mergeInstr (.lwr base rt offset) lwrMerge s

/-- The store a store instruction's snapshot makes at its effective address. -/
def storeItem (w : Width) (x : Snapshot) : List StoreItem := [{ va := x.ea, width := w, value := x.storeData }]

/-- A store of the items its snapshot gives (R381). -/
def storeInstr (i : Instr) (items : State → Snapshot → List StoreItem) (s : State) : Out :=
  byStage s (idStage i) (exStage addressOf noEffect)
    (memStep false (storeWork fun t => memWrite t t.pipe.mem.ea (items t t.pipe.mem))) wbStage

/-- SB (R391). -/
def execSb (base rt : Reg) (offset : BitVec 16) (s : State) : Out :=
  storeInstr (.sb base rt offset) (fun _ => storeItem .byte) s

/-- SH (R392). -/
def execSh (base rt : Reg) (offset : BitVec 16) (s : State) : Out :=
  storeInstr (.sh base rt offset) (fun _ => storeItem .half) s

/-- SW (R393). -/
def execSw (base rt : Reg) (offset : BitVec 16) (s : State) : Out :=
  storeInstr (.sw base rt offset) (fun _ => storeItem .word) s

/-- One-byte stores from address `a` up, byte numbers of `r` as listed (R123, R396). -/
def byteItems (r : Word) (a : Word) : List Nat → List StoreItem
  | [] => []
  | k :: ks => { va := a, width := .byte, value := (byteOf r k).zeroExtend 32 } :: byteItems r (a + 1#32) ks

/-- SWL_bytes (R396) in ascending address order. Byte number 3 of R is R[31:24]. -/
def swlItems (e : Endian) (ea r : Word) : List StoreItem :=
  match e, byteInWord ea with
  | .big, 0 => byteItems r ea [3, 2, 1, 0]
  | .big, 1 => byteItems r ea [3, 2, 1]
  | .big, 2 => byteItems r ea [3, 2]
  | .big, _ => byteItems r ea [3]
  | .little, 0 => byteItems r (alignedWord ea) [3]
  | .little, 1 => byteItems r (alignedWord ea) [2, 3]
  | .little, 2 => byteItems r (alignedWord ea) [1, 2, 3]
  | .little, _ => byteItems r (alignedWord ea) [0, 1, 2, 3]

/-- SWR_bytes (R396) in ascending address order. -/
def swrItems (e : Endian) (ea r : Word) : List StoreItem :=
  match e, byteInWord ea with
  | .big, 0 => byteItems r (alignedWord ea) [0]
  | .big, 1 => byteItems r (alignedWord ea) [1, 0]
  | .big, 2 => byteItems r (alignedWord ea) [2, 1, 0]
  | .big, _ => byteItems r (alignedWord ea) [3, 2, 1, 0]
  | .little, 0 => byteItems r ea [0, 1, 2, 3]
  | .little, 1 => byteItems r ea [0, 1, 2]
  | .little, 2 => byteItems r ea [0, 1]
  | .little, _ => byteItems r ea [0]

/-- SWL (R394). -/
def execSwl (base rt : Reg) (offset : BitVec 16) (s : State) : Out :=
  storeInstr (.swl base rt offset) (fun t x => swlItems t.cfg.endian x.ea x.storeData) s

/-- SWR (R395). -/
def execSwr (base rt : Reg) (offset : BitVec 16) (s : State) : Out :=
  storeInstr (.swr base rt offset) (fun t x => swrItems t.cfg.endian x.ea x.storeData) s

end Sys2Proof.Machine
end

