-- ==== Sys2Proof/Machine/Logic.lean ====
section
/-! DEFINITION. Logical instructions and LUI (spec/40_alu.md R312 to R319). -/

namespace Sys2Proof.Machine

/-- AND (R312). -/
def execAnd (rs rt rd : Reg) (s : State) : Out := aluInstr (.and rs rt rd) (fun a b => a &&& b) s

/-- OR (R313). -/
def execOr (rs rt rd : Reg) (s : State) : Out := aluInstr (.or rs rt rd) (fun a b => a ||| b) s

/-- XOR (R314). -/
def execXor (rs rt rd : Reg) (s : State) : Out := aluInstr (.xor rs rt rd) (fun a b => a ^^^ b) s

/-- NOR (R315). -/
def execNor (rs rt rd : Reg) (s : State) : Out := aluInstr (.nor rs rt rd) (fun a b => ~~~(a ||| b)) s

/-- ANDI (R316). -/
def execAndi (rs rt : Reg) (imm : BitVec 16) (s : State) : Out := aluInstr (.andi rs rt imm) (fun a b => a &&& b) s

/-- ORI (R317). -/
def execOri (rs rt : Reg) (imm : BitVec 16) (s : State) : Out := aluInstr (.ori rs rt imm) (fun a b => a ||| b) s

/-- XORI (R318). -/
def execXori (rs rt : Reg) (imm : BitVec 16) (s : State) : Out := aluInstr (.xori rs rt imm) (fun a b => a ^^^ b) s

/-- LUI (R319): the immediate operand is the result. -/
def execLui (rt : Reg) (imm : BitVec 16) (s : State) : Out := aluInstr (.lui rt imm) (fun _ b => b) s

end Sys2Proof.Machine
end

