-- ==== Sys2Proof/Machine/MulDiv.lean ====
section
/-! DEFINITION. Multiply, divide and the HI/LO moves (spec/40_alu.md R326 to R333). HI and LO are read and written in EX,
written only under the guard. -/

namespace Sys2Proof.Machine

/-- Write HI and LO in EX (R326). -/
def writeHiLo (hi lo : Word) (s : State) : State := { s.markSideEffect with hi := hi, lo := lo }

/-- An instruction whose EX effect writes HI and LO. -/
def hiLoInstr (i : Instr) (effect : Snapshot → State → Out) (s : State) : Out :=
  byStage s (idStage i) (exStage noCompute effect) memPass wbStage

/-- HI and LO from a 64-bit product. -/
def writeProduct (p : Dword) (s : State) : Out := .next (writeHiLo (p.extractLsb' 32 32) (p.extractLsb' 0 32) s)

/-- HI and LO left as draws (R328, R329). -/
def drawHiLo (s : State) : Out :=
  .next ((writeHiLo (Config.freeWord s.draws) (Config.freeWord (s.draws + 1)) s).drew 2)

/-- MULT (R326). -/
def execMult (rs rt : Reg) (s : State) : Out :=
  hiLoInstr (.mult rs rt) (fun x t => writeProduct (x.valA.signExtend 64 * x.valB.signExtend 64) t) s

/-- MULTU (R327). -/
def execMultu (rs rt : Reg) (s : State) : Out :=
  hiLoInstr (.multu rs rt) (fun x t => writeProduct (x.valA.zeroExtend 64 * x.valB.zeroExtend 64) t) s

/-- The quotient truncated toward zero (R328). -/
def divSigned (a b : Word) : Word := BitVec.ofInt 32 (a.toInt.tdiv b.toInt)

/-- The corners of DIV without a defined result (R328). -/
def divUndefined (a b : Word) : Bool := b == 0#32 || (a == 0x80000000#32 && b == 0xFFFFFFFF#32)

/-- DIV's effect (R328). -/
def divEffect (x : Snapshot) (s : State) : Out :=
  if divUndefined x.valA x.valB then drawHiLo s
  else .next (writeHiLo (x.valA - divSigned x.valA x.valB * x.valB) (divSigned x.valA x.valB) s)

/-- DIV (R328). -/
def execDiv (rs rt : Reg) (s : State) : Out := hiLoInstr (.div rs rt) divEffect s

/-- DIVU's effect (R329). -/
def divuEffect (x : Snapshot) (s : State) : Out :=
  if x.valB = 0#32 then drawHiLo s else .next (writeHiLo (x.valA % x.valB) (x.valA / x.valB) s)

/-- DIVU (R329). -/
def execDivu (rs rt : Reg) (s : State) : Out := hiLoInstr (.divu rs rt) divuEffect s

/-- MFHI (R330): HI is read in EX. -/
def execMfhi (rd : Reg) (s : State) : Out :=
  byStage s (idStage (.mfhi rd)) (exStage (fun t x => { x with result := t.hi }) noEffect) memPass wbStage

/-- MFLO (R331). -/
def execMflo (rd : Reg) (s : State) : Out :=
  byStage s (idStage (.mflo rd)) (exStage (fun t x => { x with result := t.lo }) noEffect) memPass wbStage

/-- MTHI (R332). -/
def execMthi (rs : Reg) (s : State) : Out := hiLoInstr (.mthi rs) (fun x t => .next (writeHiLo x.valA t.lo t)) s

/-- MTLO (R333). -/
def execMtlo (rs : Reg) (s : State) : Out := hiLoInstr (.mtlo rs) (fun x t => .next (writeHiLo t.hi x.valA t)) s

end Sys2Proof.Machine
end

