-- ==== Sys2Proof/Machine/Shift.lean ====
section
/-! DEFINITION. Shifts (spec/40_alu.md R320 to R325). The first operand is the amount, the second the value. -/

namespace Sys2Proof.Machine

/-- A register's shift amount: its low five bits (R323 to R325). -/
def lowFive (a : Word) : Nat := (a &&& 0x1F#32).toNat

/-- SLL (R320). -/
def execSll (rt rd : Reg) (shamt : Nat) (s : State) : Out := aluInstr (.sll rt rd shamt) (fun a b => b <<< a.toNat) s

/-- SRL (R321). -/
def execSrl (rt rd : Reg) (shamt : Nat) (s : State) : Out := aluInstr (.srl rt rd shamt) (fun a b => b >>> a.toNat) s

/-- SRA (R322). -/
def execSra (rt rd : Reg) (shamt : Nat) (s : State) : Out :=
  aluInstr (.sra rt rd shamt) (fun a b => b.sshiftRight a.toNat) s

/-- SLLV (R323). -/
def execSllv (rs rt rd : Reg) (s : State) : Out := aluInstr (.sllv rs rt rd) (fun a b => b <<< lowFive a) s

/-- SRLV (R324). -/
def execSrlv (rs rt rd : Reg) (s : State) : Out := aluInstr (.srlv rs rt rd) (fun a b => b >>> lowFive a) s

/-- SRAV (R325). -/
def execSrav (rs rt rd : Reg) (s : State) : Out := aluInstr (.srav rs rt rd) (fun a b => b.sshiftRight (lowFive a)) s

end Sys2Proof.Machine
end

