-- ==== Sys2Proof/Machine/System.lean ====
section
/-! DEFINITION. CACHE (spec/42_load_store.md R397, R398), SYSCALL, BREAK, the CP0 instructions and coprocessors 1 to 3
(spec/43_system.md R420 to R431). -/

namespace Sys2Proof.Machine

/-! ### CACHE -/

/-- The operation on its target cache (R398): wait until it is IDLE, issue once, wait until it is IDLE again. -/
def cacheIssue (op : Nat) (pa : Word) (s : State) : MemWork :=
  match (cacheAction op).target with
  | none => .done s
  | some c =>
    if s.cfg.present c = false then .done s
    else if (s.cache c).ctrl ≠ .idle then .stall s
    else
      let t := (cacheAction op).perform s pa
      let u := t.setMem { t.pipe.mem with memIssued := true }
      if (u.cache c).ctrl ≠ .idle then .stall u else .done u

/-- Waiting for an issued operation (R398). -/
def cacheWait (op : Nat) (s : State) : MemWork :=
  match (cacheAction op).target with
  | none => .done s
  | some c => if (s.cache c).ctrl ≠ .idle then .stall s else .done s

/-- The MEM work of CACHE (R397, R398); the interrupt sample stands in `memStep`. -/
def cacheWork (op : Nat) (s : State) : MemWork :=
  if s.pipe.mem.memIssued then cacheWait op s
  else
    let at_ := addressTranslateUnchecked s s.pipe.mem.ea .load
    let t := s.raiseMem at_.recs
    if t.pipe.mem.exc ≠ [] then .done t
    else
      match at_.pa with
      | none => .done t
      | some pa => cacheIssue op pa t

/-- CACHE (R397). -/
def execCache (base : Reg) (op : Nat) (offset : BitVec 16) (s : State) : Out :=
  byStage s (idStage (.cache base op offset)) (exStage addressOf noEffect) (memStep false (cacheWork op)) wbStage

/-! ### SYSCALL, BREAK -/

/-- An instruction that raises a record of this kind in EX. -/
def raiseInstr (i : Instr) (k : ExcKind) (s : State) : Out :=
  byStage s (idStage i) (exStage (fun _ x => x.raise [{ kind := k, mode := .any }]) noEffect) memPass wbStage

/-- SYSCALL (R422). -/
def execSyscall (code : BitVec 20) (s : State) : Out := raiseInstr (.syscall code) .sys s

/-- BREAK (R423). -/
def execBreak (code : BitVec 20) (s : State) : Out := raiseInstr (.brk code) .bp s

/-! ### Coprocessor 0 -/

/-- RFE's effect (R424). -/
def rfeEffect (_ : Snapshot) (s : State) : Out := .next (returnFromException s.markSideEffect)

/-- RFE (R424); its MEM step sets int_shadow (spec/60_exceptions.md R462). -/
def execRfe (s : State) : Out :=
  byStage s (idStage .rfe) (exStage noCompute rfeEffect) (memStep true noAccess) wbStage

/-- MFC0's effect (R425): a number without a register gives a draw, a TLB register is refused under the guard. What the
result is where the guard fails nothing can see. -/
def mfc0Effect (n : Nat) (x : Snapshot) (s : State) : Out :=
  match cp0Read s n with
  | .value v => .next (s.setEx { x with result := v })
  | .draw => .next ((s.setEx { x with result := s.freeWord }).drew 1)
  | .tlb => .refused .tlbAbstraction

/-- MFC0 (R425). -/
def execMfc0 (rt : Reg) (rd : Nat) (s : State) : Out :=
  byStage s (idStage (.mfc0 rt rd)) (exStage noCompute (mfc0Effect rd)) memPass wbStage

/-- MTC0's effect (R426): it marks the side effect only when it writes. -/
def mtc0Effect (n : Nat) (x : Snapshot) (s : State) : Out :=
  match cp0Write s n x.valB with
  | .wrote t => .next t.markSideEffect
  | .ignored => .next s
  | .tlb => .refused .tlbAbstraction

/-- MTC0 (R426). -/
def execMtc0 (rt : Reg) (rd : Nat) (s : State) : Out :=
  byStage s (idStage (.mtc0 rt rd)) (exStage noCompute (mtc0Effect rd)) memPass wbStage

/-- An instruction the spec refuses once it reaches EX with no record and a true guard (R427, R428). -/
def refusedInstr (i : Instr) (r : Refusal) (s : State) : Out :=
  byStage s (idStage i) (exStage noCompute fun _ _ => .refused r) memPass wbStage

/-- TLBR (R427). -/
def execTlbr (s : State) : Out := refusedInstr .tlbr .tlbAbstraction s

/-- TLBWI (R427). -/
def execTlbwi (s : State) : Out := refusedInstr .tlbwi .tlbAbstraction s

/-- TLBWR (R427). -/
def execTlbwr (s : State) : Out := refusedInstr .tlbwr .tlbAbstraction s

/-- TLBP (R427). -/
def execTlbp (s : State) : Out := refusedInstr .tlbp .tlbAbstraction s

/-! ### Coprocessors 1 to 3 (R428) -/

/-- COP1. -/
def execCop1 (sub : BitVec 26) (s : State) : Out := refusedInstr (.cop1 sub) .coprocessorAbsent s

/-- COP2. -/
def execCop2 (sub : BitVec 26) (s : State) : Out := refusedInstr (.cop2 sub) .coprocessorAbsent s

/-- COP3. -/
def execCop3 (sub : BitVec 26) (s : State) : Out := refusedInstr (.cop3 sub) .coprocessorAbsent s

/-- LWC1. -/
def execLwc1 (base : Reg) (rt : Nat) (offset : BitVec 16) (s : State) : Out :=
  refusedInstr (.lwc1 base rt offset) .coprocessorAbsent s

/-- LWC2. -/
def execLwc2 (base : Reg) (rt : Nat) (offset : BitVec 16) (s : State) : Out :=
  refusedInstr (.lwc2 base rt offset) .coprocessorAbsent s

/-- LWC3. -/
def execLwc3 (base : Reg) (rt : Nat) (offset : BitVec 16) (s : State) : Out :=
  refusedInstr (.lwc3 base rt offset) .coprocessorAbsent s

/-- SWC1. -/
def execSwc1 (base : Reg) (rt : Nat) (offset : BitVec 16) (s : State) : Out :=
  refusedInstr (.swc1 base rt offset) .coprocessorAbsent s

/-- SWC2. -/
def execSwc2 (base : Reg) (rt : Nat) (offset : BitVec 16) (s : State) : Out :=
  refusedInstr (.swc2 base rt offset) .coprocessorAbsent s

/-- SWC3. -/
def execSwc3 (base : Reg) (rt : Nat) (offset : BitVec 16) (s : State) : Out :=
  refusedInstr (.swc3 base rt offset) .coprocessorAbsent s

end Sys2Proof.Machine
end

