-- ==== Sys2Proof/Machine/Pipeline.lean ====
section
/-! DEFINITION. The cycle (spec/70_reset_and_hazards.md R530): the WB, MEM, EX and ID steps on their slots, the advance,
the IF step, then the caches, the external masters and the clock (spec/20_memory.md R174). -/

namespace Sys2Proof.Machine

/-- The work of a slot's instruction in the stage `active` names: a bubble does nothing (R39), a word that decodes runs
its meaning, a reserved word only raises (R218). -/
def runSlot (x : Snapshot) (s : State) : Out :=
  if x.bubble then .next s
  else
    match decode x.instr with
    | .ok i => exec i s
    | .error _ => reservedWord s

/-- Step 1 (R548). -/
def wbPhase (s : State) : Out := runSlot s.pipe.wb { s with active := .writeback }

/-- Step 2 (R543); `stall` says whether it stalls. -/
def memPhase (s : State) : Out := runSlot s.pipe.mem { s with active := .memory, stall := false }

/-- Step 3 (R540). -/
def exPhase (s : State) : Out := runSlot s.pipe.ex { s with active := .execute }

/-- Step 4 (R532). -/
def idPhase (s : State) : Out := runSlot s.pipe.dec { s with active := .decode }

/-- Step 5: every snapshot one slot toward WB. -/
def advance (s : State) : State :=
  { s with pipe := { fetch := {}, dec := s.pipe.fetch, ex := s.pipe.dec, mem := s.pipe.ex, wb := s.pipe.mem } }

/-- A fetched snapshot fills the IF slot and PC advances (R531). -/
def fillFetch (s : State) (x : Snapshot) : State :=
  { s with pipe := { s.pipe with fetch := x }, pc := s.pc + 4#32 }

/-- Step 6 (R531, R453). -/
def ifPhase (s : State) : State :=
  match fetchWord s s.pc with
  | .word w t => fillFetch t { pc := s.pc, instr := w, bubble := false }
  | .faulted recs t => fillFetch t { pc := s.pc, bubble := false, exc := recs }
  | .notReady t => { t with pipe := { t.pipe with fetch := {} } }

/-- Steps 3 to 6, or on a stall the bubble into WB (R544). -/
def afterMem (s : State) : Out :=
  if s.stall then .next (s.setWb {})
  else andThen (exPhase s) fun t => andThen (idPhase t) fun u => .next (ifPhase (advance u))

/-- PipelineCycle (R530). -/
def pipelineCycle (s : State) : Out := andThen (wbPhase s) fun t => andThen (memPhase t) afterMem

/-- The end of a cycle (R67, R174): the counter, and `active` back at the first step of the next cycle. -/
def tick (s : State) : State := { s with cycle := s.cycle + 1, active := .writeback }

/-- One cycle of the block: its input, the pipeline, ICACHE, DCACHE, the external masters, the clock (R174). -/
def cycle (s : State) : Out :=
  andThen (pipelineCycle (sampleInput s)) fun t =>
    andThen (stepCache t .icache) fun u =>
      andThen (stepCache u .dcache) fun v =>
        andThen (runMasters v v.env.masters) fun w => .next (tick w)

/-- Cycles until an instruction leaves WB or the run ends, at most `n` (log entry 2). -/
def runCycles : Nat → State → Out
  | 0, s => .next s
  | n + 1, s => andThen (cycle s) fun t => if s.pipe.wb.bubble && !t.halted then runCycles n t else .next t

/-- Whether the line array of a cache fits its geometry (spec/10_state.md R62, R63). -/
def cacheShape (g : Geometry) (k : Cache) : Bool :=
  k.lines.length == g.ways * g.blockCount && k.lines.all fun l => l.data.length == g.words

/-- The bounds of the line arrays of the caches that exist. -/
def arraysInBounds (s : State) : Bool :=
  (!s.cfg.icachePresent || cacheShape s.cfg.icacheGeom s.icache) &&
    (!s.cfg.dcachePresent || cacheShape s.cfg.dcacheGeom s.dcache)

/-- The physical address `step` fetches its next instruction from: that of the fetch register. -/
def fetchAddress (s : State) : Word := ((segmentMap s s.pc s.pc .fetch).pa).getD s.pc

/-- The word in a line of ICACHE that holds it, if one does. -/
def patchLine (s : State) (pa w : Word) : State :=
  match lookup s .icache pa with
  | some way =>
    let g := s.cfg.icacheGeom
    { s with icache := s.icache.updLine g way (g.index pa) fun l => { l with data := l.data.set (g.wordIndex pa) w } }
  | none => s

/-- The load of one instruction word from outside the machine, at the address the fetch register names: no instruction
in flight (as after the debugger's PC write, spec/60_exceptions.md R491), the word in memory and in the ICACHE line of
that address if there is one, the run not ended. -/
def loadFetchWord (s : State) (w : Word) : State :=
  patchLine
    { s.flush with
      mem := s.mem.writeBytes (fetchAddress s) (bytesOfWord s.cfg.endian w), halted := false, active := .writeback }
    (fetchAddress s) w

end Sys2Proof.Machine
end

