-- ==== Sys2Proof/Machine/Step.lean ====
section
/-! DEFINITION. One step of the machine, and the load of an instruction where it fetches. -/

namespace Sys2Proof.Machine

/-- One step: the cycles (spec/70_reset_and_hazards.md R530) until the next instruction leaves WB, by committing or by
taking an exception (log entry 2). A run that has ended stays as it is (R570); an invalid geometry has no run
(spec/00_scope.md R9). -/
def step (s : State) : Host.Outcome State Fault Refusal :=
  if s.halted then .next s
  else if s.cfg.wellFormed = false then .refused .invalidGeometry
  else if arraysInBounds s = false then .fault .cacheArrayBounds
  else runCycles Config.stepCycles s

/-- `s` with the instruction word `w` stored where `step` fetches its next instruction (log entry 8). -/
def State.withFetchWord (s : State) (nbits w : Nat) : State := loadFetchWord s (BitVec.ofNat 32 (w % 2 ^ nbits))

end Sys2Proof.Machine
end

