-- ==== Sys2Proof/Machine/Debugger.lean ====
section
/-! DEFINITION. The debugger accessors, each used between two cycles (spec/60_exceptions.md R491). -/

namespace Sys2Proof.Machine

/-- read_gpr(i): the register file's value, which holds the results of committed instructions only. -/
def debugReadGpr (s : State) (r : Reg) : Word := readGpr s r

/-- write_gpr(i, v): ignored for r0. A consumer in flight whose producer stands in a slot uses the producer's result; one
in EX whose producer has already committed reads the register file (R536) and so gets `v`, although R491 gives it the
producer's result (DESIGN CHOICE, log entry 18). -/
def debugWriteGpr (s : State) (r : Reg) (v : Word) : State := writeGpr s r v

/-- read_pc(): the fetch register. -/
def debugReadPc (s : State) : Word := s.pc

/-- write_pc(v): the fetch register, every slot a bubble, the shadow cleared. -/
def debugWritePc (s : State) (v : Word) : State := { s.flush with pc := v }

/-- pending_exception(): the code of the record the WB snapshot would take. -/
def debugPendingException (s : State) : Option (BitVec 5) :=
  if s.pipe.wb.bubble then none else (selectRecord s.pipe.wb.exc).map ExcRecord.code

end Sys2Proof.Machine
end

