-- ==== Sys2Proof/Safety.lean ====
section
/-! DEFINITION. The terms claims are stated in: one instruction's passage through the stages, what is left unchanged, the
invariants, and what a safe run is. -/

namespace Sys2Proof.Machine

/-! ### One instruction's passage -/

/-- `s` with the word `w` at address `p` just arrived in the ID slot and bubbles (log entry 17) everywhere else. -/
def issue (s : State) (p w : Word) : State := { s with pipe := { dec := { pc := p, instr := w, bubble := false } } }

/-- The ID, EX, MEM and WB work of the one instruction in flight, `work` run with `active` naming each stage in turn and
the snapshots moved one slot between them; if the MEM work stalls, the state it stalls in. -/
def passAlone (work : State → Out) (s : State) : Out :=
  andThen (work { s with active := .decode }) fun a =>
    andThen (work { advance a with active := .execute }) fun b =>
      andThen (work { advance b with active := .memory, stall := false }) fun c =>
        if c.stall then .next c else work { advance c with active := .writeback }

/-- The whole effect of instruction `i` with no other instruction in flight: `exec i` in its four stages. -/
def runAlone (i : Instr) (s : State) : Out := passAlone (exec i) s

/-- Instruction `i` at address `p`, run alone from `s`, ends in `t`: every `exec i` on the way answers a next state. -/
def runsTo (i : Instr) (s : State) (p : Word) (t : State) : Prop := runAlone i (issue s p (encode i)) = .next t

/-- No interrupt is taken by an instruction that did nothing in EX: the shadow is set or none is requested
(spec/60_exceptions.md R461, R462). -/
def noInterrupt (s : State) : Prop := s.intShadow = true ∨ intCond s = false

/-! ### Frames: `s` before, `t` after, `p` the instruction's address -/

/-- Every general register but `r`. -/
def sameGprBut (r : Reg) (s t : State) : Prop := ∀ q, q ≠ r → readGpr t q = readGpr s q

/-- Every general register. -/
def sameGpr (s t : State) : Prop := ∀ q, readGpr t q = readGpr s q

/-- HI and LO. -/
def sameHiLo (s t : State) : Prop := t.hi = s.hi ∧ t.lo = s.lo

/-- SR, Cause (with the pins it reads), EPC and BadVAddr. -/
def sameCp0 (s t : State) : Prop :=
  t.sr = s.sr ∧ readCause t = readCause s ∧ t.cause = s.cause ∧ t.epc = s.epc ∧ t.badVAddr = s.badVAddr

/-- Every byte of memory, and what reached devices. -/
def sameMemory (s t : State) : Prop := (∀ a, Memory.read t.mem a = Memory.read s.mem a) ∧ t.devLog = s.devLog

/-- The bus, the pending requests and the environment's inputs. -/
def sameBus (s t : State) : Prop := t.bus = s.bus ∧ t.requests = s.requests ∧ t.env = s.env

/-- Both caches and the bus. -/
def sameCaches (s t : State) : Prop := t.icache = s.icache ∧ t.dcache = s.dcache ∧ sameBus s t

/-- The clock, the counters, the parameters and the fetch register. -/
def sameRun (s t : State) : Prop :=
  t.cycle = s.cycle ∧ t.loadUseEvents = s.loadUseEvents ∧ t.draws = s.draws ∧ t.cfg = s.cfg ∧ t.pc = s.pc

/-- The run ends with this instruction exactly if it stands at HALT_PC (spec/70_reset_and_hazards.md R570), and its
MEM step has cleared the shadow (spec/60_exceptions.md R462). -/
def committed (s t : State) (p : Word) : Prop := t.halted = (s.halted || haltsAt s p) ∧ t.intShadow = false

/-- What an instruction changes that commits with one general register as its only effect. -/
def onlyGpr (r : Reg) (s t : State) (p : Word) : Prop :=
  sameGprBut r s t ∧ sameHiLo s t ∧ sameCp0 s t ∧ sameMemory s t ∧ sameCaches s t ∧ sameRun s t ∧ committed s t p

/-- What an instruction changes that commits with HI and LO as its only effect, but for the count of draws. -/
def onlyHiLo (s t : State) (p : Word) : Prop :=
  sameGpr s t ∧ sameCp0 s t ∧ sameMemory s t ∧ sameCaches s t ∧ t.cycle = s.cycle ∧ t.cfg = s.cfg ∧ t.pc = s.pc ∧
    t.loadUseEvents = s.loadUseEvents ∧ committed s t p

/-- What an instruction changes that commits with the fetch register, and a link register if it has one, as its only
effect. -/
def onlyPc (s t : State) (p : Word) : Prop :=
  sameHiLo s t ∧ sameCp0 s t ∧ sameMemory s t ∧ sameCaches s t ∧ t.cycle = s.cycle ∧ t.cfg = s.cfg ∧
    t.loadUseEvents = s.loadUseEvents ∧ t.draws = s.draws ∧ committed s t p

/-- What an instruction that commits leaves unchanged whatever it does to memory, devices and DCACHE. -/
def onlyData (s t : State) (p : Word) : Prop :=
  sameHiLo s t ∧ sameCp0 s t ∧ t.icache = s.icache ∧ sameBus s t ∧ t.cycle = s.cycle ∧ t.cfg = s.cfg ∧ t.pc = s.pc ∧
    t.loadUseEvents = s.loadUseEvents ∧ committed s t p

/-- What an instruction that commits leaves unchanged whatever it does to CP0. -/
def onlyCp0 (s t : State) (p : Word) : Prop :=
  sameGpr s t ∧ sameHiLo s t ∧ sameMemory s t ∧ sameCaches s t ∧ sameRun s t ∧ t.halted = (s.halted || haltsAt s p)

/-- Instruction `i` at `p`, run alone from `s`, stalls in MEM in `t` (spec/70_reset_and_hazards.md R543, R544): it stands
in the MEM slot with its address computed and no record, the other slots bubbles as log entry 17 has them, and nothing
else but the caches has changed; `issued` says whether it has issued a cache operation. -/
def stallsInMem (i : Instr) (s t : State) (p ea : Word) (issued : Bool) : Prop :=
  t.stall = true ∧ sameGpr s t ∧ sameHiLo s t ∧ sameCp0 s t ∧ sameMemory s t ∧ sameBus s t ∧ sameRun s t ∧
    t.halted = s.halted ∧ t.intShadow = s.intShadow ∧ t.pipe = { mem := t.pipe.mem } ∧ t.pipe.mem.pc = p ∧
    t.pipe.mem.instr = encode i ∧ t.pipe.mem.bubble = false ∧ t.pipe.mem.ea = ea ∧
    t.pipe.mem.dest = (decodeOut i).dest ∧ t.pipe.mem.exc = [] ∧ t.pipe.mem.exSideEffect = false ∧
    t.pipe.mem.memIssued = issued

/-- A general register holds `v`, or is r0, which reads zero (spec/10_state.md R31). -/
def gets (t : State) (r : Reg) (v : Word) : Prop := readGpr t r = if r = 0 then 0#32 else v

/-- The machine has taken the exception `r` of the instruction at `p` (spec/60_exceptions.md R474), every slot the
bubble (whose pc 0 is the model's, log entry 17), and nothing else has happened to it since `s`. -/
def tookException (s t : State) (p : Word) (r : ExcRecord) : Prop :=
  t.sr = pushStatus s.sr ∧ t.cause = causeAtEntry s.cause r ∧ t.epc = p ∧
    t.badVAddr = (if r.hasAddress then r.badVAddr else s.badVAddr) ∧ t.pc = vector s.bootVectors r ∧
    t.pipe = {} ∧ t.intShadow = false ∧ sameGpr s t ∧ sameHiLo s t ∧ sameMemory s t ∧ sameCaches s t ∧
    t.cycle = s.cycle ∧ t.cfg = s.cfg ∧ t.halted = s.halted ∧ t.loadUseEvents = s.loadUseEvents

/-- Instruction `i` at `p`, run alone from `s`, takes the exception `r` and has no other effect. -/
def traps (i : Instr) (s : State) (p : Word) (r : ExcRecord) : Prop := ∃ t, runsTo i s p t ∧ tookException s t p r

/-! ### Where an access goes (spec/20_memory.md R107) -/

/-- A data access at `va` passes its checks and goes to `pa`, through DCACHE or around it. -/
def reaches (s : State) (va : Word) (mode : AccessMode) (pa : Word) (cacheable : Bool) : Prop :=
  addressTranslate s va va mode = { pa := some pa, cacheable := cacheable, recs := [] }

/-- The value of `n` bytes of memory from `pa` up (spec/20_memory.md R112). -/
def memoryValue (s : State) (pa : Word) (w : Width) : Word := valueOfBytes s.cfg.endian (s.mem.readBytes pa w.bytes)

/-- What address `a` reads as after the cells are stored in order over what read as `old`. -/
def afterStores : List (Word × Byte) → Nat → Byte → Byte
  | [], _, old => old
  | (pa, v) :: cells, a, old => afterStores cells a (if a = pa.toNat then v else old)

/-- Memory holds the cells stored in order; every byte outside them reads as before. -/
def stored (s t : State) (cells : List (Word × Byte)) : Prop :=
  ∀ a, Memory.read t.mem a = afterStores cells a (Memory.read s.mem a)

/-- The bytes of a value with the addresses they are stored at, the lowest first. -/
def cellsFrom (pa : Word) : List Byte → List (Word × Byte)
  | [] => []
  | b :: bs => (pa, b) :: cellsFrom (pa + 1#32) bs

/-- A cache that start_miss leaves for a miss of `pa` in `s` (spec/20_memory.md R142, R144): the miss counted, no line
changed, and the one transaction: the writeback of a valid dirty victim, the fill chained, unless the access is a fetch
or DCACHE is isolated (R158); else the fill. -/
def missStarted (s : State) (c : CacheId) (pa : Word) (mode : AccessMode) (after : Cache) : Prop :=
  let g := s.cfg.geom c
  let k := s.cache c
  let i := g.index pa
  let w := victim k g i
  let l := k.line g w i
  let evicts := l.valid = true ∧ l.dirty = true ∧ mode ≠ .fetch ∧ ¬(c = .dcache ∧ s.sr.getLsbD 16 = true)
  after.lines = k.lines ∧ after.hits = k.hits ∧ after.misses = k.misses + 1 ∧
    (evicts → after.ctrl = .writeback ∧ after.txn = some
      { remaining := g.blockSize / 4, next := 0, way := w, index := i, mode := .store, invalidate := false,
        addr := (l.tag <<< (g.offsetBits + g.indexBits)) ||| (BitVec.ofNat 32 i <<< g.offsetBits),
        client := c.client, entered := false,
        thenFill := some { addr := g.lineBase pa, way := w, index := i, mode := mode } }) ∧
    (¬evicts → after.ctrl = .fetch ∧ after.txn = some
      { remaining := g.blockSize / 4, next := 0, addr := g.lineBase pa, way := w, index := i, mode := mode,
        invalidate := false, client := c.client, entered := false, thenFill := none })

/-- `n` steps of one cache, the clock ticking after each (spec/20_memory.md R147, R174). -/
def stepsCache (c : CacheId) : Nat → State → Out
  | 0, s => .next s
  | n + 1, s => andThen (stepCache s c) fun t => stepsCache c n (tick t)

/-! ### Two instructions one behind the other -/

/-- The word `w` at `p` joins the pipeline in ID behind what is in flight. -/
def behind (p w : Word) (s : State) : State :=
  { s with pipe := { s.pipe with dec := { pc := p, instr := w, bubble := false } } }

/-- The words `v` at `p` and `w` at `p + 4` passing the pipeline one behind the other, nothing before or after them, by
the stage steps of the pipeline in the order of spec/70_reset_and_hazards.md R530, cycle by cycle: ID of `v`; EX of `v`
and ID of `w`; MEM of `v` and EX of `w`; WB of `v` and MEM of `w`; WB of `w`. If a MEM step stalls, the state it stalls
in. -/
def runPair (v w : Word) (s : State) (p : Word) : Out :=
  andThen (idPhase (issue s p v)) fun a =>
  andThen (exPhase (behind (p + 4#32) w (advance a))) fun b =>
  andThen (idPhase b) fun c =>
  andThen (memPhase (advance c)) fun d =>
  if d.stall then .next d else
  andThen (exPhase d) fun e =>
  andThen (wbPhase (advance e)) fun f =>
  andThen (memPhase f) fun g =>
  if g.stall then .next g else wbPhase (advance g)

/-! ### Invariants -/

/-- The bits of SR that read zero are zero (spec/10_state.md R51). -/
def srReservedZero (s : State) : Prop := s.sr &&& ~~~srWriteMask = 0#32

/-- BD, the reserved bits and the pin bits of the stored Cause are zero (spec/10_state.md R54). -/
def causeReservedZero (s : State) : Prop := s.cause &&& 0xCFFFFC83#32 = 0#32

/-- r0 holds zero in the register file itself (spec/10_state.md R31). -/
def r0Zero (s : State) : Prop := s.gpr.get 0 = 0#32

/-- Memory is in its canonical form. -/
def memoryCanonical (s : State) : Prop := Memory.wf s.mem = true

/-- ICACHE never holds a dirty line and never writes back (spec/20_memory.md R153). -/
def icacheClean (s : State) : Prop :=
  (∀ l ∈ s.icache.lines, l.dirty = false) ∧ (s.icache.ctrl = .idle ∨ s.icache.ctrl = .fetch)

/-- A cache is IDLE exactly when it has no transaction, and its transaction is its own (spec/10_state.md R64). -/
def ctrlConsistent (c : CacheId) (k : Cache) : Prop :=
  (k.ctrl = .idle ↔ k.txn = none) ∧ ∀ t, k.txn = some t → t.client = c.client

/-- Whether a cache has a transaction that has taken the bus. -/
def Cache.onBus (k : Cache) : Bool := match k.txn with | some t => t.entered | none => false

/-- A cache holds the bus token exactly while its transaction has entered (spec/20_memory.md R148, R150, R170). -/
def busConsistent (s : State) : Prop :=
  ctrlConsistent .icache s.icache ∧ ctrlConsistent .dcache s.dcache ∧
    (s.bus.holder = some .icache ↔ s.icache.onBus = true) ∧ (s.bus.holder = some .dcache ↔ s.dcache.onBus = true)

/-- A bubble wraps the NOP word and holds no record (spec/10_state.md R39). -/
def bubbleClean (x : Snapshot) : Prop := x.bubble = true → x.instr = 0#32 ∧ x.exc = []

/-- Every slot's bubble is clean. -/
def bubblesClean (s : State) : Prop :=
  bubbleClean s.pipe.fetch ∧ bubbleClean s.pipe.dec ∧ bubbleClean s.pipe.ex ∧ bubbleClean s.pipe.mem ∧
    bubbleClean s.pipe.wb

/-- The registers' part of the invariants. -/
def statusLegal (s : State) : Prop := srReservedZero s ∧ causeReservedZero s ∧ r0Zero s

/-- The caches', the bus's and the slots' part of the invariants. -/
def cachesConsistent (s : State) : Prop := icacheClean s ∧ busConsistent s ∧ bubblesClean s

/-! ### Kinds of instruction -/

/-- The forms the spec refuses in EX (spec/43_system.md R427, R428). -/
def refusedForm : Instr → Bool
  | .tlbr | .tlbwi | .tlbwr | .tlbp => true
  | .mfc0 _ n | .mtc0 _ n => n == 0 || n == 1 || n == 2 || n == 4 || n == 10
  | .cop1 .. | .cop2 .. | .cop3 .. | .lwc1 .. | .lwc2 .. | .lwc3 .. | .swc1 .. | .swc2 .. | .swc3 .. => true
  | _ => false

/-- The instructions that neither access memory nor transfer control. -/
def computes : Instr → Bool
  | .sll .. | .srl .. | .sra .. | .sllv .. | .srlv .. | .srav .. | .syscall .. | .brk .. | .mfhi .. | .mthi .. | .mflo ..
  | .mtlo .. | .mult .. | .multu .. | .div .. | .divu .. | .add .. | .addu .. | .sub .. | .subu .. | .and .. | .or .. | .xor ..
  | .nor .. | .slt .. | .sltu .. | .addi .. | .addiu .. | .slti .. | .sltiu .. | .andi .. | .ori .. | .xori .. | .lui ..
  | .mfc0 .. | .mtc0 .. | .rfe => true
  | _ => false

/-! ### Safe runs -/

/-- `n` steps from `s` end in a next state: no fault and no refusal on the way. -/
def safeFor : Nat → State → Prop
  | 0, _ => True
  | n + 1, s => ∃ t, step s = .next t ∧ safeFor n t

/-- A state some number of steps leads to. -/
inductive Reaches : State → State → Prop where
  | refl (s : State) : Reaches s s
  | step {s t u : State} (h : Machine.step s = .next t) (r : Reaches t u) : Reaches s u

end Sys2Proof.Machine
end

