-- ==== Sys2Proof/Certificates/Slice0/Obligations.lean ====
section
/-! DEFINITION. The statements for the provers. "Alone" in a docstring: the instruction is the only one in flight and
`exec` runs it in its four stages (`runsTo`, Sys2Proof/Safety.lean). -/

open Sys2Proof Sys2Proof.Machine

/-! ### Encoding (spec/30_encoding.md) -/

/-- R200 to R216, R112, R118, R220: decoding the word of any well-formed instruction gives it back, every operand at
every value, and so does decoding its bytes in either byte order, which takes exactly four. -/
def Obligations.DecodeEncode : Prop :=
  ∀ i : Instr, i.wellFormed = true → decode (encode i) = .ok i ∧
    ∀ (e : Endian) (rest : List Byte), decodeBytes e (encodeBytes e i ++ rest) = .ok (i, rest)

/-- R213 to R216, R218: the words that do not decode are exactly those of the cells marked rsvd, and every other word
decodes to a well-formed instruction. -/
def Obligations.ReservedEncodings : Prop :=
  (∀ (w : Word) (i : Instr), decode w = .ok i → i.wellFormed = true) ∧
  ∀ w : Word, (∃ r, decode w = .error r) ↔
    (opOf w ∈ [0x14#6, 0x15#6, 0x16#6, 0x17#6, 0x18#6, 0x19#6, 0x1A#6, 0x1B#6, 0x1C#6, 0x1D#6, 0x1E#6, 0x1F#6, 0x27#6,
        0x2C#6, 0x2D#6, 0x30#6, 0x34#6, 0x35#6, 0x36#6, 0x37#6, 0x38#6, 0x3C#6, 0x3D#6, 0x3E#6, 0x3F#6]) ∨
    (opOf w = 0x00#6 ∧ functOf w ∈ [0x01#6, 0x05#6, 0x0A#6, 0x0B#6, 0x0E#6, 0x0F#6, 0x14#6, 0x15#6, 0x16#6, 0x17#6,
        0x1C#6, 0x1D#6, 0x1E#6, 0x1F#6, 0x28#6, 0x29#6, 0x2C#6, 0x2D#6, 0x2E#6, 0x2F#6, 0x30#6, 0x31#6, 0x32#6, 0x33#6,
        0x34#6, 0x35#6, 0x36#6, 0x37#6, 0x38#6, 0x39#6, 0x3A#6, 0x3B#6, 0x3C#6, 0x3D#6, 0x3E#6, 0x3F#6]) ∨
    (opOf w = 0x01#6 ∧ rtBits w ∉ [0x00#5, 0x01#5, 0x10#5, 0x11#5]) ∨
    (opOf w = 0x10#6 ∧ rsBits w < 0x10#5 ∧ rsBits w ∉ [0x00#5, 0x04#5]) ∨
    (opOf w = 0x10#6 ∧ 0x10#5 ≤ rsBits w ∧ functOf w ∉ [0x01#6, 0x02#6, 0x06#6, 0x08#6, 0x10#6])

/-- R211: the fields an encoding does not name have no effect on the decode. -/
def Obligations.UnusedFieldsIgnored : Prop :=
  (∀ (rs rt rd sa : BitVec 5) (f : BitVec 6),
      f ∈ [0x04#6, 0x06#6, 0x07#6, 0x20#6, 0x21#6, 0x22#6, 0x23#6, 0x24#6, 0x25#6, 0x26#6, 0x27#6, 0x2A#6, 0x2B#6] →
      decode (rWord rs rt rd sa f) = decode (rWord rs rt rd 0#5 f)) ∧
  (∀ (rs rt rd sa : BitVec 5) (f : BitVec 6), f ∈ [0x00#6, 0x02#6, 0x03#6] →
      decode (rWord rs rt rd sa f) = decode (rWord 0#5 rt rd sa f)) ∧
  (∀ (rs rt rd sa : BitVec 5) (f : BitVec 6), f ∈ [0x18#6, 0x19#6, 0x1A#6, 0x1B#6] →
      decode (rWord rs rt rd sa f) = decode (rWord rs rt 0#5 0#5 f)) ∧
  (∀ (rs rt rd sa : BitVec 5) (f : BitVec 6), f ∈ [0x08#6, 0x11#6, 0x13#6] →
      decode (rWord rs rt rd sa f) = decode (rWord rs 0#5 0#5 0#5 f)) ∧
  (∀ (rs rt rd sa : BitVec 5), decode (rWord rs rt rd sa 0x09#6) = decode (rWord rs 0#5 rd 0#5 0x09#6)) ∧
  (∀ (rs rt rd sa : BitVec 5) (f : BitVec 6), f ∈ [0x10#6, 0x12#6] →
      decode (rWord rs rt rd sa f) = decode (rWord 0#5 0#5 rd 0#5 f)) ∧
  (∀ (op : BitVec 6) (rs rt : BitVec 5) (imm : BitVec 16), op ∈ [0x06#6, 0x07#6] →
      decode (iWord op rs rt imm) = decode (iWord op rs 0#5 imm)) ∧
  (∀ (rs rt : BitVec 5) (imm : BitVec 16), decode (iWord 0x0F#6 rs rt imm) = decode (iWord 0x0F#6 0#5 rt imm)) ∧
  (∀ (rs rt rd sa : BitVec 5) (f : BitVec 6), rs ∈ [0x00#5, 0x04#5] →
      decode (0x10#6 ++ rs ++ rt ++ rd ++ sa ++ f) = decode (0x10#6 ++ rs ++ rt ++ rd ++ 0#5 ++ 0#6)) ∧
  (∀ (rs rt rd sa : BitVec 5) (f : BitVec 6), 0x10#5 ≤ rs →
      decode (0x10#6 ++ rs ++ rt ++ rd ++ sa ++ f) = decode (0x10#6 ++ 0x10#5 ++ 0#5 ++ 0#5 ++ 0#5 ++ f))

/-- R201 to R216: a word of each format, written out from the tables, decodes to its instruction. -/
def Obligations.SampleWords : Prop :=
  decode 0x00A61821#32 = .ok (.addu 5 6 3) ∧ decode 0x000F7FC3#32 = .ok (.sra 15 15 31) ∧
  decode 0x03E00008#32 = .ok (.jr 31) ∧ decode 0x0000000C#32 = .ok (.syscall 0#20) ∧
  decode 0x04F18000#32 = .ok (.bgezal 7 0x8000#16) ∧ decode 0x0FFFFFFF#32 = .ok (.jal 0x3FFFFFF#26) ∧
  decode 0x2149FFFF#32 = .ok (.addi 10 9 0xFFFF#16) ∧ decode 0x8FBF0010#32 = .ok (.lw 29 31 0x0010#16) ∧
  decode 0xBCD50004#32 = .ok (.cache 6 0x15 0x0004#16) ∧ decode 0x40886000#32 = .ok (.mtc0 8 12) ∧
  decode 0x42000010#32 = .ok .rfe ∧ decode 0x4A123456#32 = .ok (.cop2 0x2123456#26) ∧
  decode 0xC0000000#32 = .error .opcode

/-! ### Add, subtract, set, logic, shift (spec/40_alu.md) -/

/-- R303, R305, R308, R309, R312 to R315, R323 to R325: the three-register instructions that cannot trap write rd, also
where rd is a source, and change nothing else; a destination r0 is discarded. -/
def Obligations.ThreeRegisterResults : Prop :=
  ∀ (s : State) (p : Word) (rs rt rd : Reg), noInterrupt s →
    ∀ c ∈ [(Instr.addu rs rt rd, readGpr s rs + readGpr s rt),
        (Instr.subu rs rt rd, readGpr s rs - readGpr s rt),
        (Instr.slt rs rt rd, if (readGpr s rs).toInt < (readGpr s rt).toInt then 1#32 else 0#32),
        (Instr.sltu rs rt rd, if (readGpr s rs).toNat < (readGpr s rt).toNat then 1#32 else 0#32),
        (Instr.and rs rt rd, readGpr s rs &&& readGpr s rt),
        (Instr.or rs rt rd, readGpr s rs ||| readGpr s rt),
        (Instr.xor rs rt rd, readGpr s rs ^^^ readGpr s rt),
        (Instr.nor rs rt rd, ~~~(readGpr s rs ||| readGpr s rt)),
        (Instr.sllv rs rt rd, readGpr s rt <<< ((readGpr s rs).toNat % 32)),
        (Instr.srlv rs rt rd, readGpr s rt >>> ((readGpr s rs).toNat % 32)),
        (Instr.srav rs rt rd, (readGpr s rt).sshiftRight ((readGpr s rs).toNat % 32))],
      ∃ t, runsTo c.1 s p t ∧ gets t rd c.2 ∧ onlyGpr rd s t p

/-- R307, R310, R311, R316 to R319: the immediate instructions that cannot trap write rt and change nothing else;
ADDIU, SLTI and SLTIU sign-extend the immediate, ANDI, ORI and XORI zero-extend it, LUI puts it in the upper half. And
R320 to R322: the constant shifts of rt by 0 to 31 write rd. -/
def Obligations.ImmediateResults : Prop :=
  ∀ (s : State) (p : Word) (rs rt rd : Reg) (imm : BitVec 16) (sa : Nat), noInterrupt s →
    (∀ c ∈ [(Instr.addiu rs rt imm, readGpr s rs + imm.signExtend 32),
        (Instr.slti rs rt imm, if (readGpr s rs).toInt < imm.toInt then 1#32 else 0#32),
        (Instr.sltiu rs rt imm, if (readGpr s rs).toNat < (imm.signExtend 32).toNat then 1#32 else 0#32),
        (Instr.andi rs rt imm, readGpr s rs &&& (0#16 ++ imm)),
        (Instr.ori rs rt imm, readGpr s rs ||| (0#16 ++ imm)),
        (Instr.xori rs rt imm, readGpr s rs ^^^ (0#16 ++ imm)),
        (Instr.lui rt imm, imm ++ 0#16)],
      ∃ t, runsTo c.1 s p t ∧ gets t rt c.2 ∧ onlyGpr rt s t p) ∧
    (sa < 32 →
      ∀ c ∈ [(Instr.sll rt rd sa, readGpr s rt <<< sa), (Instr.srl rt rd sa, readGpr s rt >>> sa),
          (Instr.sra rt rd sa, (readGpr s rt).sshiftRight sa)],
        ∃ t, runsTo c.1 s p t ∧ gets t rd c.2 ∧ onlyGpr rd s t p)

/-- R301, R302, R304, R306: the sum or difference in range, ADD, SUB and ADDI write it and change nothing else; out of
range they take Ov, an interrupt requested or not, and the destination keeps its value.
That the `pc` of a bubble is 0 is the model's choice (log entry 17). -/
def Obligations.TrappingAdds : Prop :=
  ∀ (s : State) (p : Word) (rs rt rd : Reg) (imm : BitVec 16),
    ∀ c ∈ [(Instr.add rs rt rd, rd, (readGpr s rs).toInt + (readGpr s rt).toInt),
        (Instr.sub rs rt rd, rd, (readGpr s rs).toInt - (readGpr s rt).toInt),
        (Instr.addi rs rt imm, rt, (readGpr s rs).toInt + imm.toInt)],
      (noInterrupt s → -2 ^ 31 ≤ c.2.2 → c.2.2 < 2 ^ 31 →
        ∃ t, runsTo c.1 s p t ∧ gets t c.2.1 (BitVec.ofInt 32 c.2.2) ∧ onlyGpr c.2.1 s t p) ∧
      (c.2.2 < -2 ^ 31 ∨ 2 ^ 31 ≤ c.2.2 → traps c.1 s p { kind := .ov, mode := .any })

/-! ### Multiply, divide, HI and LO (spec/40_alu.md) -/

/-- R326, R327: MULT and MULTU leave the exact product in HI and LO, whether or not an interrupt is requested, and
change nothing else. -/
def Obligations.MultiplyResults : Prop :=
  ∀ (s : State) (p : Word) (rs rt : Reg),
    (∃ t, runsTo (.mult rs rt) s p t ∧ (t.hi ++ t.lo).toInt = (readGpr s rs).toInt * (readGpr s rt).toInt ∧
      onlyHiLo s t p ∧ t.draws = s.draws) ∧
    (∃ t, runsTo (.multu rs rt) s p t ∧ (t.hi ++ t.lo).toNat = (readGpr s rs).toNat * (readGpr s rt).toNat ∧
      onlyHiLo s t p ∧ t.draws = s.draws)

/-- R328, R329 where the quotient is defined: LO gets it, truncated toward zero, HI the remainder. -/
def Obligations.DivideResults : Prop :=
  ∀ (s : State) (p : Word) (rs rt : Reg), readGpr s rt ≠ 0#32 →
    (¬(readGpr s rs = 0x80000000#32 ∧ readGpr s rt = 0xFFFFFFFF#32) →
      ∃ t, runsTo (.div rs rt) s p t ∧ t.lo.toInt = (readGpr s rs).toInt.tdiv (readGpr s rt).toInt ∧
        t.hi.toInt = (readGpr s rs).toInt.tmod (readGpr s rt).toInt ∧ onlyHiLo s t p ∧ t.draws = s.draws) ∧
    (∃ t, runsTo (.divu rs rt) s p t ∧ t.lo.toNat = (readGpr s rs).toNat / (readGpr s rt).toNat ∧
      t.hi.toNat = (readGpr s rs).toNat % (readGpr s rt).toNat ∧ onlyHiLo s t p ∧ t.draws = s.draws)

/-- R328, R329 where it is not: the instruction completes without an exception, HI and LO are the next two draws
(log entry 4), and nothing else changes. -/
def Obligations.DivideUndefined : Prop :=
  ∀ (s : State) (p : Word) (rs rt : Reg),
    ∀ c ∈ [(Instr.div rs rt, readGpr s rt = 0#32 ∨ readGpr s rs = 0x80000000#32 ∧ readGpr s rt = 0xFFFFFFFF#32),
        (Instr.divu rs rt, readGpr s rt = 0#32)],
      c.2 → ∃ t, runsTo c.1 s p t ∧ t.hi = Config.freeWord s.draws ∧ t.lo = Config.freeWord (s.draws + 1) ∧
        t.draws = s.draws + 2 ∧ onlyHiLo s t p

/-- R330 to R333: MFHI and MFLO copy HI and LO to rd, MTHI and MTLO copy rs to HI or LO and leave the other. -/
def Obligations.HiLoMoves : Prop :=
  ∀ (s : State) (p : Word) (rs rd : Reg),
    (noInterrupt s → ∀ c ∈ [(Instr.mfhi rd, s.hi), (Instr.mflo rd, s.lo)],
      ∃ t, runsTo c.1 s p t ∧ gets t rd c.2 ∧ onlyGpr rd s t p) ∧
    (∃ t, runsTo (.mthi rs) s p t ∧ t.hi = readGpr s rs ∧ t.lo = s.lo ∧ onlyHiLo s t p ∧ t.draws = s.draws) ∧
    (∃ t, runsTo (.mtlo rs) s p t ∧ t.lo = readGpr s rs ∧ t.hi = s.hi ∧ onlyHiLo s t p ∧ t.draws = s.draws)

/-! ### Control transfer (spec/41_control_transfer.md) -/

/-- R356 to R361 and R353: a branch sets the fetch register to p + 4 + offset * 4 if its condition holds, keeps it if
not, and changes nothing else. -/
def Obligations.ConditionalBranches : Prop :=
  ∀ (s : State) (p : Word) (rs rt : Reg) (off : BitVec 16), noInterrupt s →
    ∀ c ∈ [(Instr.beq rs rt off, decide (readGpr s rs = readGpr s rt)),
        (Instr.bne rs rt off, decide (readGpr s rs ≠ readGpr s rt)),
        (Instr.blez rs off, decide ((readGpr s rs).toInt ≤ 0)), (Instr.bgtz rs off, decide (0 < (readGpr s rs).toInt)),
        (Instr.bltz rs off, decide ((readGpr s rs).toInt < 0)), (Instr.bgez rs off, decide (0 ≤ (readGpr s rs).toInt))],
      ∃ t, runsTo c.1 s p t ∧ t.pc = (if c.2 then p + 4#32 + (off.signExtend 32 <<< 2) else s.pc) ∧
        sameGpr s t ∧ onlyPc s t p

/-- R362, R363, R352: BLTZAL and BGEZAL link in r31 whether taken or not, and test the old rs even where it is r31. -/
def Obligations.LinkingBranches : Prop :=
  ∀ (s : State) (p : Word) (rs : Reg) (off : BitVec 16), noInterrupt s →
    ∀ c ∈ [(Instr.bltzal rs off, decide ((readGpr s rs).toInt < 0)),
        (Instr.bgezal rs off, decide (0 ≤ (readGpr s rs).toInt))],
      ∃ t, runsTo c.1 s p t ∧ t.pc = (if c.2 then p + 4#32 + (off.signExtend 32 <<< 2) else s.pc) ∧
        gets t 31 (p + s.cfg.linkOffset) ∧ sameGprBut 31 s t ∧ onlyPc s t p

/-- R364 to R367, R353: J and JAL go to the target in the region of p + 4, JR and JALR to the old x[rs], JAL links in
r31 and JALR in rd (discarded where rd is r0); nothing else changes. -/
def Obligations.Jumps : Prop :=
  ∀ (s : State) (p : Word) (rs rd : Reg) (target : BitVec 26), noInterrupt s →
    (∃ t, runsTo (.j target) s p t ∧ t.pc = (p + 4#32).extractLsb' 28 4 ++ target ++ 0#2 ∧ sameGpr s t ∧ onlyPc s t p) ∧
    (∃ t, runsTo (.jal target) s p t ∧ t.pc = (p + 4#32).extractLsb' 28 4 ++ target ++ 0#2 ∧
      gets t 31 (p + s.cfg.linkOffset) ∧ sameGprBut 31 s t ∧ onlyPc s t p) ∧
    (∃ t, runsTo (.jr rs) s p t ∧ t.pc = readGpr s rs ∧ sameGpr s t ∧ onlyPc s t p) ∧
    (∃ t, runsTo (.jalr rs rd) s p t ∧ t.pc = readGpr s rs ∧ gets t rd (p + s.cfg.linkOffset) ∧ sameGprBut rd s t ∧
      onlyPc s t p)

/-- R350, R541, R354: in EX with any other instructions in flight, a transfer whose guard holds and whose condition
holds sets the fetch register and makes bubbles of the ID and IF slots; otherwise it changes neither.
That the `pc` of a bubble is 0 is the model's choice (log entry 17). -/
def Obligations.TakenTransferSquashes : Prop :=
  ∀ (s : State) (rs rt rd : Reg) (off : BitVec 16) (target : BitVec 26), s.active = .execute →
    let a := operandValue s s.pipe.ex.opA
    let b := operandValue s s.pipe.ex.opB
    let near := s.pipe.ex.pc + 4#32 + s.pipe.ex.imm
    let far := ((s.pipe.ex.pc + 4#32) &&& 0xF0000000#32) ||| s.pipe.ex.imm
    ∀ c ∈ [(Instr.beq rs rt off, decide (a = b), near), (Instr.bne rs rt off, decide (a ≠ b), near),
        (Instr.blez rs off, decide (a.toInt ≤ 0), near), (Instr.bgtz rs off, decide (0 < a.toInt), near),
        (Instr.bltz rs off, decide (a.toInt < 0), near), (Instr.bgez rs off, decide (0 ≤ a.toInt), near),
        (Instr.bltzal rs off, decide (a.toInt < 0), near), (Instr.bgezal rs off, decide (0 ≤ a.toInt), near),
        (Instr.j target, true, far), (Instr.jal target, true, far), (Instr.jr rs, true, a), (Instr.jalr rs rd, true, a)],
      ∃ t, exec c.1 s = .next t ∧ t.pipe.mem = s.pipe.mem ∧ t.pipe.wb = s.pipe.wb ∧ t.pipe.ex.exc = s.pipe.ex.exc ∧
        if exGuard s && c.2.1 then t.pc = c.2.2 ∧ t.pipe.dec = bubbleSnapshot ∧ t.pipe.fetch = bubbleSnapshot
        else t.pc = s.pc ∧ t.pipe.dec = s.pipe.dec ∧ t.pipe.fetch = s.pipe.fetch

/-! ### Where a data access goes (spec/20_memory.md) -/

/-- R104, R105, R107: the four segments, the user-mode check, Translate's faults and the Mapped check. -/
def Obligations.SegmentMap : Prop :=
  ∀ (s : State) (va : Word) (mode : AccessMode),
    let a := addressTranslate s va va mode
    let user := if s.userMode ∧ 0x80000000 ≤ va.toNat then [({ kind := .addrErr, mode, badVAddr := va } : ExcRecord)] else []
    let unmapped (pa : Word) := if mapped s.cfg pa then [] else
      [if mode = .fetch then ({ kind := .ibe, mode } : ExcRecord) else { kind := .dbe, mode }]
    let present := if mode = .fetch then s.cfg.icachePresent else s.cfg.dcachePresent
    (0x80000000 ≤ va.toNat → va.toNat < 0xA0000000 →
      a = { pa := some (va - 0x80000000#32), cacheable := present, recs := user ++ unmapped (va - 0x80000000#32) }) ∧
    (0xA0000000 ≤ va.toNat → va.toNat < 0xC0000000 →
      a = { pa := some (va - 0xA0000000#32), cacheable := false, recs := user ++ unmapped (va - 0xA0000000#32) }) ∧
    (va.toNat < 0x80000000 ∨ 0xC0000000 ≤ va.toNat →
      match translate s.cfg va mode with
      | .ok pa c => a = { pa := some pa, cacheable := c && present, recs := user ++ unmapped pa }
      | .tlbFault refill =>
        a = { pa := none, cacheable := false, recs := user ++ [{ kind := .tlb, mode, badVAddr := va, refill }] }
      | .modFault =>
        a = { pa := none, cacheable := false, recs := user ++ [{ kind := .mod, mode := .store, badVAddr := va }] })

/-- R122, R105, R123, R381: a misaligned halfword or word access takes AdEL or AdES with BadVAddr the effective address,
and so does, in user mode, any access at an address with bit 31 set, CACHE among them where CU0 lets user mode run it.
That the `pc` of a bubble is 0 is the model's choice (log entry 17). -/
def Obligations.AddressErrorTraps : Prop :=
  ∀ (s : State) (p : Word) (base rt : Reg) (off : BitVec 16) (op : Nat),
    let ea := readGpr s base + off.signExtend 32
    let adel : ExcRecord := { kind := .addrErr, mode := .load, badVAddr := ea }
    let ades : ExcRecord := { kind := .addrErr, mode := .store, badVAddr := ea }
    (ea.toNat % 2 ≠ 0 →
      traps (.lh base rt off) s p adel ∧ traps (.lhu base rt off) s p adel ∧ traps (.sh base rt off) s p ades) ∧
    (ea.toNat % 4 ≠ 0 → traps (.lw base rt off) s p adel ∧ traps (.sw base rt off) s p ades) ∧
    (s.userMode = true → 0x80000000 ≤ ea.toNat →
      (∀ i ∈ [Instr.lb base rt off, .lbu base rt off, .lh base rt off, .lhu base rt off, .lw base rt off,
          .lwl base rt off, .lwr base rt off], traps i s p adel) ∧
      (∀ i ∈ [Instr.sb base rt off, .sh base rt off, .sw base rt off, .swl base rt off, .swr base rt off],
        traps i s p ades) ∧
      (s.copUsable 0#2 = true → traps (.cache base op off) s p adel))

/-- R106, R107, R123, R381: an aligned access that Translate or the memory map turns away takes TLB, Mod or DBE; LWL and
LWR ask for the aligned word around the address, SWL and SWR for the bytes of that word, but report the address itself.
R110: an aligned uncached access that Translate sends to a misaligned place takes the Mapper's address error, with the
access's own address, if no interrupt has been taken before it (log entry 16). R397: CACHE that the mode allows, whatever
its operation, takes TLB as a load does.
That the `pc` of a bubble is 0 is the model's choice (log entry 17). -/
def Obligations.TranslationTraps : Prop :=
  ∀ (s : State) (p : Word) (base rt : Reg) (op : Nat) (off : BitVec 16),
    let ea := readGpr s base + off.signExtend 32
    let walked (va : Word) := va.toNat < 0x80000000 ∨ 0xC0000000 ≤ va.toNat
    let a := ea &&& 0xFFFFFFFC#32
    (s.userMode = false ∨ ea.toNat < 0x80000000) →
      (∀ c ∈ [(Instr.lb base rt off, Width.byte, ea, AccessMode.load), (.lbu base rt off, .byte, ea, .load),
          (.lh base rt off, .half, ea, .load), (.lhu base rt off, .half, ea, .load), (.lw base rt off, .word, ea, .load),
          (.lwl base rt off, .word, a, .load), (.lwr base rt off, .word, a, .load),
          (.sb base rt off, .byte, ea, .store), (.sh base rt off, .half, ea, .store), (.sw base rt off, .word, ea, .store)],
        aligned c.2.2.1 c.2.1 = true →
          (∀ refill, walked c.2.2.1 → translate s.cfg c.2.2.1 c.2.2.2 = .tlbFault refill →
              traps c.1 s p { kind := .tlb, mode := c.2.2.2, badVAddr := ea, refill }) ∧
          (walked c.2.2.1 → translate s.cfg c.2.2.1 c.2.2.2 = .modFault →
            traps c.1 s p { kind := .mod, mode := .store, badVAddr := ea }) ∧
          (∀ pa, (segmentMap s c.2.2.1 ea c.2.2.2).pa = some pa → mapped s.cfg pa = false →
            traps c.1 s p { kind := .dbe, mode := c.2.2.2 }) ∧
          (∀ pa, noInterrupt s → reaches s c.2.2.1 c.2.2.2 pa false → aligned pa c.2.1 = false →
            traps c.1 s p { kind := .addrErr, mode := c.2.2.2, badVAddr := ea })) ∧
      (copAllowed s 0#2 = true → ∀ refill, walked ea → translate s.cfg ea .load = .tlbFault refill →
        traps (.cache base op off) s p { kind := .tlb, mode := .load, badVAddr := ea, refill }) ∧
      (∀ i ∈ [Instr.swl base rt off, .swr base rt off],
          (∀ refill, walked a → (∀ k < 4, translate s.cfg (a + BitVec.ofNat 32 k) .store = .tlbFault refill) →
            traps i s p { kind := .tlb, mode := .store, badVAddr := ea, refill }) ∧
          (walked a → (∀ k < 4, translate s.cfg (a + BitVec.ofNat 32 k) .store = .modFault) →
            traps i s p { kind := .mod, mode := .store, badVAddr := ea }) ∧
          ((∀ k < 4, ∃ pa, (segmentMap s (a + BitVec.ofNat 32 k) ea .store).pa = some pa ∧ mapped s.cfg pa = false) →
            traps i s p { kind := .dbe, mode := .store }))

/-! ### Loads (spec/42_load_store.md) -/

/-- R383 to R387, R382, uncached memory: the register gets the value extended, and nothing else changes. (Where Translate
sends an aligned address to a misaligned place: `TranslationTraps`.) -/
def Obligations.UncachedLoads : Prop :=
  ∀ (s : State) (p : Word) (base rt : Reg) (off : BitVec 16) (pa : Word), noInterrupt s →
    let ea := readGpr s base + off.signExtend 32
    reaches s ea .load pa false → isDevice s.cfg pa = false →
      ∀ c ∈ [(Instr.lb base rt off, Width.byte, ((memoryValue s pa .byte).extractLsb' 0 8).signExtend 32),
          (.lbu base rt off, .byte, memoryValue s pa .byte),
          (.lh base rt off, .half, ((memoryValue s pa .half).extractLsb' 0 16).signExtend 32),
          (.lhu base rt off, .half, memoryValue s pa .half), (.lw base rt off, .word, memoryValue s pa .word)],
        aligned ea c.2.1 = true → aligned pa c.2.1 = true →
          ∃ t, runsTo c.1 s p t ∧ gets t rt c.2.2 ∧ onlyGpr rt s t p

/-- R388 to R390, R123: LWL and LWR merge the aligned memory word around the address into rt by the tables. -/
def Obligations.UncachedMergeLoads : Prop :=
  ∀ (s : State) (p : Word) (base rt : Reg) (off : BitVec 16) (pa : Word), noInterrupt s →
    let ea := readGpr s base + off.signExtend 32
    let W := memoryValue s pa .word
    let R := readGpr s rt
    let k := ea.toNat % 4
    reaches s (ea &&& 0xFFFFFFFC#32) .load pa false → aligned pa .word = true → isDevice s.cfg pa = false →
      ∀ c ∈ [(Instr.lwl base rt off, Endian.big, 0, W), (.lwl base rt off, .big, 1, W.extractLsb' 0 24 ++ R.extractLsb' 0 8),
          (.lwl base rt off, .big, 2, W.extractLsb' 0 16 ++ R.extractLsb' 0 16),
          (.lwl base rt off, .big, 3, W.extractLsb' 0 8 ++ R.extractLsb' 0 24),
          (.lwl base rt off, .little, 0, W.extractLsb' 0 8 ++ R.extractLsb' 0 24),
          (.lwl base rt off, .little, 1, W.extractLsb' 0 16 ++ R.extractLsb' 0 16),
          (.lwl base rt off, .little, 2, W.extractLsb' 0 24 ++ R.extractLsb' 0 8), (.lwl base rt off, .little, 3, W),
          (.lwr base rt off, .big, 0, R.extractLsb' 8 24 ++ W.extractLsb' 24 8),
          (.lwr base rt off, .big, 1, R.extractLsb' 16 16 ++ W.extractLsb' 16 16),
          (.lwr base rt off, .big, 2, R.extractLsb' 24 8 ++ W.extractLsb' 8 24), (.lwr base rt off, .big, 3, W),
          (.lwr base rt off, .little, 0, W), (.lwr base rt off, .little, 1, R.extractLsb' 24 8 ++ W.extractLsb' 8 24),
          (.lwr base rt off, .little, 2, R.extractLsb' 16 16 ++ W.extractLsb' 16 16),
          (.lwr base rt off, .little, 3, R.extractLsb' 8 24 ++ W.extractLsb' 24 8)],
        s.cfg.endian = c.2.1 → k = c.2.2.1 → ∃ t, runsTo c.1 s p t ∧ gets t rt c.2.2.2 ∧ onlyGpr rt s t p

/-- R116, R381: an uncached load or store that reaches a device completes; the load's value is a draw (log entry 4),
the store is handed to the environment (log entry 11), each access once; memory does not change. LWL and LWR draw the
word they splice (R388, R389). SWL and SWR (R123, R396) make their byte stores in order, each to memory or to a device as
its own address goes (log entry 13). -/
def Obligations.DeviceAccesses : Prop :=
  ∀ (s : State) (p : Word) (base rt : Reg) (off : BitVec 16) (pa : Word) (at_ : Nat → Word), noInterrupt s →
    let ea := readGpr s base + off.signExtend 32
    let a := ea &&& 0xFFFFFFFC#32
    let drawn := Config.freeWord s.draws
    (isDevice s.cfg pa = true →
      (∀ c ∈ [(Instr.lb base rt off, ea, Width.byte, (drawn.extractLsb' 0 8).signExtend 32),
          (.lbu base rt off, ea, .byte, (drawn.extractLsb' 0 8).zeroExtend 32),
          (.lh base rt off, ea, .half, (drawn.extractLsb' 0 16).signExtend 32),
          (.lhu base rt off, ea, .half, (drawn.extractLsb' 0 16).zeroExtend 32), (.lw base rt off, ea, .word, drawn),
          (.lwl base rt off, a, .word, lwlMerge s.cfg.endian (ea.toNat % 4) drawn (readGpr s rt)),
          (.lwr base rt off, a, .word, lwrMerge s.cfg.endian (ea.toNat % 4) drawn (readGpr s rt))],
        reaches s c.2.1 .load pa false → aligned c.2.1 c.2.2.1 = true → aligned pa c.2.2.1 = true →
          ∃ t, runsTo c.1 s p t ∧ gets t rt c.2.2.2 ∧ sameGprBut rt s t ∧ t.mem = s.mem ∧ t.dcache = s.dcache ∧
            t.devLog = s.devLog ++ [{ client := .dcache, addr := pa, bytes := c.2.2.1.bytes, data := none }] ∧
            t.draws = s.draws + 1 ∧ onlyData s t p) ∧
      (reaches s ea .store pa false →
        ∀ c ∈ [(Instr.sb base rt off, Width.byte, ((readGpr s rt).extractLsb' 0 8).zeroExtend 32),
            (.sh base rt off, .half, ((readGpr s rt).extractLsb' 0 16).zeroExtend 32),
            (.sw base rt off, .word, readGpr s rt)],
          aligned ea c.2.1 = true → aligned pa c.2.1 = true →
            ∃ t, runsTo c.1 s p t ∧ sameGpr s t ∧ t.mem = s.mem ∧ t.dcache = s.dcache ∧
              t.devLog = s.devLog ++ [{ client := .dcache, addr := pa, bytes := c.2.1.bytes, data := some c.2.2 }] ∧
              t.draws = s.draws ∧ onlyData s t p)) ∧
    ((∀ k < 4, reaches s (a + BitVec.ofNat 32 k) .store (at_ k) false) →
      ∀ c ∈ [(Instr.swl base rt off, swlItems s.cfg.endian ea (readGpr s rt)),
          (.swr base rt off, swrItems s.cfg.endian ea (readGpr s rt))],
        let cells := c.2.map fun x => (at_ (x.va - a).toNat, x.value)
        ∃ t, runsTo c.1 s p t ∧
          stored s t ((cells.filter fun x => !isDevice s.cfg x.1).map fun x => (x.1, x.2.extractLsb' 0 8)) ∧
          t.devLog = s.devLog ++ (cells.filter fun x => isDevice s.cfg x.1).map (fun x =>
            { client := .dcache, addr := x.1, bytes := 1, data := some x.2 }) ∧
          sameGpr s t ∧ t.dcache = s.dcache ∧ t.draws = s.draws ∧ onlyData s t p)

/-! ### Stores (spec/42_load_store.md) -/

/-- R391 to R393, R112, uncached memory: the bytes of rt go to the address the access reaches, in the run's byte order;
every other byte, every register and both caches stay. -/
def Obligations.UncachedStores : Prop :=
  ∀ (s : State) (p : Word) (base rt : Reg) (off : BitVec 16) (pa : Word), noInterrupt s →
    let ea := readGpr s base + off.signExtend 32
    let r (k : Nat) : Byte := (readGpr s rt).extractLsb' (8 * k) 8
    reaches s ea .store pa false → isDevice s.cfg pa = false →
      ∀ c ∈ [(Instr.sb base rt off, Width.byte, [r 0], [r 0]), (.sh base rt off, .half, [r 1, r 0], [r 0, r 1]),
          (.sw base rt off, .word, [r 3, r 2, r 1, r 0], [r 0, r 1, r 2, r 3])],
        aligned ea c.2.1 = true → aligned pa c.2.1 = true →
          ∃ t, runsTo c.1 s p t ∧
            stored s t (cellsFrom pa (match s.cfg.endian with | .big => c.2.2.1 | .little => c.2.2.2)) ∧ sameGpr s t ∧
            t.dcache = s.dcache ∧ t.devLog = s.devLog ∧ t.draws = s.draws ∧ onlyData s t p

/-- R394 to R396, R123: SWL and SWR store the bytes of the table in ascending address order; every other byte, every
register and both caches stay. That each byte goes where its own address is translated to (`at_`) is the model's reading,
log entry 13 (DEDUCED). -/
def Obligations.UncachedMergeStores : Prop :=
  ∀ (s : State) (p : Word) (base rt : Reg) (off : BitVec 16) (at_ : Nat → Word), noInterrupt s →
    let ea := readGpr s base + off.signExtend 32
    let a := ea &&& 0xFFFFFFFC#32
    let r (k : Nat) : Byte := (readGpr s rt).extractLsb' (8 * k) 8
    (∀ k < 4, reaches s (a + BitVec.ofNat 32 k) .store (at_ k) false ∧ isDevice s.cfg (at_ k) = false) →
      ∀ c ∈ [(Instr.swl base rt off, Endian.big, 0, [(0, r 3), (1, r 2), (2, r 1), (3, r 0)]),
          (.swl base rt off, .big, 1, [(1, r 3), (2, r 2), (3, r 1)]), (.swl base rt off, .big, 2, [(2, r 3), (3, r 2)]),
          (.swl base rt off, .big, 3, [(3, r 3)]),
          (.swl base rt off, .little, 0, [(0, r 3)]), (.swl base rt off, .little, 1, [(0, r 2), (1, r 3)]),
          (.swl base rt off, .little, 2, [(0, r 1), (1, r 2), (2, r 3)]),
          (.swl base rt off, .little, 3, [(0, r 0), (1, r 1), (2, r 2), (3, r 3)]),
          (.swr base rt off, .big, 0, [(0, r 0)]), (.swr base rt off, .big, 1, [(0, r 1), (1, r 0)]),
          (.swr base rt off, .big, 2, [(0, r 2), (1, r 1), (2, r 0)]),
          (.swr base rt off, .big, 3, [(0, r 3), (1, r 2), (2, r 1), (3, r 0)]),
          (.swr base rt off, .little, 0, [(0, r 0), (1, r 1), (2, r 2), (3, r 3)]),
          (.swr base rt off, .little, 1, [(1, r 0), (2, r 1), (3, r 2)]),
          (.swr base rt off, .little, 2, [(2, r 0), (3, r 1)]), (.swr base rt off, .little, 3, [(3, r 0)])],
        s.cfg.endian = c.2.1 → ea.toNat % 4 = c.2.2.1 →
          ∃ t, runsTo c.1 s p t ∧ stored s t (c.2.2.2.map fun x => (at_ x.1, x.2)) ∧ sameGpr s t ∧
            t.dcache = s.dcache ∧ t.devLog = s.devLog ∧ t.draws = s.draws ∧ onlyData s t p

/-! ### Loads, stores and CACHE through DCACHE (spec/20_memory.md) -/

/-- R120, R145, R383 to R389: a cached load whose line DCACHE holds gets the bytes of that line, stamps the line with the
cycle, counts a hit, and changes nothing else: neither memory nor the miss counter. Where Translate sends an aligned
address to a misaligned place, to which R119 gives no lane, the value is a draw (log entry 16). -/
def Obligations.CachedLoads : Prop :=
  ∀ (s : State) (p : Word) (base rt : Reg) (off : BitVec 16) (pa : Word) (way : Nat), noInterrupt s →
    let ea := readGpr s base + off.signExtend 32
    let g := s.cfg.dcacheGeom
    let l := s.dcache.line g way (g.index pa)
    let lane (w : Width) :=
      if aligned pa w then laneRead s.cfg.endian w pa (l.data.getD (g.wordIndex pa) 0#32)
      else w.truncate (Config.freeWord s.draws)
    s.dcache.ctrl = .idle → lookup s .dcache pa = some way →
      ∀ c ∈ [(Instr.lb base rt off, ea, Width.byte, ((lane .byte).extractLsb' 0 8).signExtend 32),
          (.lbu base rt off, ea, .byte, lane .byte),
          (.lh base rt off, ea, .half, ((lane .half).extractLsb' 0 16).signExtend 32),
          (.lhu base rt off, ea, .half, lane .half), (.lw base rt off, ea, .word, lane .word),
          (.lwl base rt off, ea &&& 0xFFFFFFFC#32, .word, lwlMerge s.cfg.endian (ea.toNat % 4) (lane .word) (readGpr s rt)),
          (.lwr base rt off, ea &&& 0xFFFFFFFC#32, .word, lwrMerge s.cfg.endian (ea.toNat % 4) (lane .word) (readGpr s rt))],
        aligned c.2.1 c.2.2.1 = true → reaches s c.2.1 .load pa true →
          ∃ t, runsTo c.1 s p t ∧ gets t rt c.2.2.2 ∧ sameGprBut rt s t ∧
            t.dcache = { s.dcache.setLine g way (g.index pa) { l with lastAccess := s.cycle } with
              hits := s.dcache.hits + 1 } ∧
            t.mem = s.mem ∧ t.devLog = s.devLog ∧ t.draws = s.draws + (if aligned pa c.2.2.1 then 0 else 1) ∧
            onlyData s t p

/-- R121, R146, R391 to R393: a cached store whose line DCACHE holds merges its bytes into the line, makes it dirty,
stamps it, counts a hit, and changes nothing else: memory keeps the old bytes. Where Translate sends an aligned address to
a misaligned place, the word of the line is left a draw (log entry 16). R394 to R396, R123: SWL and SWR make the one-byte
writes that R396 lists, in order, into that line. -/
def Obligations.CachedStores : Prop :=
  ∀ (s : State) (p : Word) (base rt : Reg) (off : BitVec 16) (pa : Word) (way : Nat), noInterrupt s →
    let ea := readGpr s base + off.signExtend 32
    let a := ea &&& 0xFFFFFFFC#32
    let g := s.cfg.dcacheGeom
    let l := s.dcache.line g way (g.index pa)
    let j := g.wordIndex pa
    let rest (t : State) (n : Nat) :=
      sameGpr s t ∧ t.mem = s.mem ∧ t.devLog = s.devLog ∧ t.draws = s.draws + n ∧ onlyData s t p
    s.dcache.ctrl = .idle →
      (lookup s .dcache pa = some way → reaches s ea .store pa true →
        ∀ c ∈ [(Instr.sb base rt off, Width.byte), (.sh base rt off, .half), (.sw base rt off, .word)],
          aligned ea c.2 = true →
            ∃ t, runsTo c.1 s p t ∧ rest t (if aligned pa c.2 then 0 else 1) ∧
              t.dcache = { s.dcache.setLine g way (g.index pa)
                  { l with data := l.data.set j (if aligned pa c.2 then
                             laneWrite s.cfg.endian c.2 pa (l.data.getD j 0#32) (readGpr s rt)
                             else Config.freeWord s.draws),
                           dirty := true, lastAccess := s.cycle } with
                hits := s.dcache.hits + 1 }) ∧
      ((∀ k < 4, reaches s (a + BitVec.ofNat 32 k) .store (pa + BitVec.ofNat 32 k) true ∧
          (lookup s .dcache (pa + BitVec.ofNat 32 k)).isSome = true) →
        ∀ c ∈ [(Instr.swl base rt off, swlItems s.cfg.endian ea (readGpr s rt)),
            (.swr base rt off, swrItems s.cfg.endian ea (readGpr s rt))],
          ∃ t, runsTo c.1 s p t ∧ rest t 0 ∧
            t.dcache = (c.2.foldl (fun u x => cacheWrite u .dcache (pa + (x.va - a)) .byte x.value) s).dcache)

/-- R120, R121, R123, R142, R144: a cached access that DCACHE is not ready for stalls in MEM, kept there with its address
and no record, and nothing is changed but DCACHE: an IDLE one without the line counts the miss and starts its
transaction, a busy one goes on as it is.
That the `pc` of a bubble is 0 is the model's choice (log entry 17). -/
def Obligations.CacheMissStalls : Prop :=
  ∀ (s : State) (p : Word) (base rt : Reg) (off : BitVec 16) (pa : Word), noInterrupt s →
    let ea := readGpr s base + off.signExtend 32
    let a := ea &&& 0xFFFFFFFC#32
    let waits (i : Instr) (pa : Word) (mode : AccessMode) := ∃ t, runsTo i s p t ∧ stallsInMem i s t p ea false ∧
      t.icache = s.icache ∧
      if s.dcache.ctrl = .idle then missStarted s .dcache pa mode t.dcache else t.dcache = s.dcache
    (∀ c ∈ [(Instr.lb base rt off, ea, Width.byte, AccessMode.load), (.lbu base rt off, ea, .byte, .load),
        (.lh base rt off, ea, .half, .load), (.lhu base rt off, ea, .half, .load), (.lw base rt off, ea, .word, .load),
        (.lwl base rt off, a, .word, .load), (.lwr base rt off, a, .word, .load),
        (.sb base rt off, ea, .byte, .store), (.sh base rt off, ea, .half, .store), (.sw base rt off, ea, .word, .store)],
      aligned c.2.1 c.2.2.1 = true → reaches s c.2.1 c.2.2.2 pa true →
        (s.dcache.ctrl ≠ .idle ∨ lookup s .dcache pa = none) → waits c.1 pa c.2.2.2) ∧
    (∀ c ∈ [(Instr.swl base rt off, swlItems s.cfg.endian ea (readGpr s rt)),
        (.swr base rt off, swrItems s.cfg.endian ea (readGpr s rt))], ∀ x, c.2.head? = some x →
      (∀ k < 4, reaches s (a + BitVec.ofNat 32 k) .store (pa + BitVec.ofNat 32 k) true ∧
        (s.dcache.ctrl ≠ .idle ∨ lookup s .dcache (pa + BitVec.ofNat 32 k) = none)) →
        waits c.1 (pa + (x.va - a)) .store)

/-- R160, R397, R398: CACHE with a no-op value, on an absent cache, or on an IDLE cache that does not hold the line
completes and changes nothing. -/
def Obligations.CacheNoOps : Prop :=
  ∀ (s : State) (p : Word) (base : Reg) (op : Nat) (off : BitVec 16) (pa : Word) (c : Bool), noInterrupt s →
    copAllowed s 0#2 = true →
    addressTranslateUnchecked s (readGpr s base + off.signExtend 32) .load = { pa := some pa, cacheable := c, recs := [] } →
    (op ∉ [0x10, 0x11, 0x15, 0x19] ∨ (op = 0x10 ∧ (s.cfg.icachePresent = false ∨ s.icache.ctrl = .idle ∧ lookup s .icache pa = none)) ∨
      (op ∈ [0x11, 0x15, 0x19] ∧ (s.cfg.dcachePresent = false ∨ s.dcache.ctrl = .idle ∧ lookup s .dcache pa = none))) →
      ∃ t, runsTo (.cache base op off) s p t ∧ sameGpr s t ∧ t.mem = s.mem ∧ t.devLog = s.devLog ∧ t.dcache = s.dcache ∧
        t.draws = s.draws ∧ onlyData s t p

/-- R161 to R164, R398: CACHE on a line its IDLE cache holds. Hit invalidate drops the line at once, dirty or not; hit
writeback of a clean line does nothing; hit writeback-invalidate of a clean line drops it; of a dirty line both start
the writeback, with the operation marked issued, and stall. On a cache that is not IDLE none of them issues: the
instruction stalls and nothing changes. Once issued it waits, whatever interrupt is requested: its
MEM step does nothing but stall while its cache is busy, and ends when the cache is IDLE; then it commits.
That the `pc` of a bubble is 0 is the model's choice (log entry 17). -/
def Obligations.CacheHits : Prop :=
  (∀ (s : State) (p : Word) (base : Reg) (op : Nat) (off : BitVec 16) (pa : Word) (b : Bool) (c : CacheId),
    noInterrupt s → copAllowed s 0#2 = true →
    addressTranslateUnchecked s (readGpr s base + off.signExtend 32) .load = { pa := some pa, cacheable := b, recs := [] } →
    (op = 0x10 ∧ c = .icache ∨ op ∈ [0x11, 0x15, 0x19] ∧ c = .dcache) → s.cfg.present c = true →
    (s.cache c).ctrl ≠ .idle →
      ∃ t, runsTo (.cache base op off) s p t ∧
        stallsInMem (.cache base op off) s t p (readGpr s base + off.signExtend 32) false ∧
        t.icache = s.icache ∧ t.dcache = s.dcache) ∧
  (∀ (s : State) (p : Word) (base : Reg) (off : BitVec 16) (pa : Word) (b : Bool) (c : CacheId) (way : Nat),
    noInterrupt s → copAllowed s 0#2 = true →
    addressTranslateUnchecked s (readGpr s base + off.signExtend 32) .load = { pa := some pa, cacheable := b, recs := [] } →
    s.cfg.present c = true → (s.cache c).ctrl = .idle → lookup s c pa = some way →
      let g := s.cfg.geom c
      let k := s.cache c
      let l := k.line g way (g.index pa)
      let dropped (t : State) := t.cache c = k.setLine g way (g.index pa) { l with valid := false, dirty := false }
      let writing (t : State) (op : Nat) (inv : Bool) :=
        stallsInMem (.cache base op off) s t p (readGpr s base + off.signExtend 32) true ∧
        t.cache c = { k with
          ctrl := .opWriteback
          txn := some
            { remaining := g.words, next := 0, addr := g.lineBase pa, way := way, index := g.index pa, mode := .store,
              invalidate := inv, client := c.client, entered := false, thenFill := none } }
      let rest (t : State) := sameGpr s t ∧ sameHiLo s t ∧ sameCp0 s t ∧ t.mem = s.mem ∧ t.devLog = s.devLog ∧ sameBus s t ∧
        sameRun s t ∧ ∀ d, d ≠ c → t.cache d = s.cache d
      (∀ op, op = (match c with | .icache => 0x10 | .dcache => 0x11) →
        ∃ t, runsTo (.cache base op off) s p t ∧ dropped t ∧ rest t ∧ committed s t p) ∧
      (c = .dcache → l.dirty = false →
        (∃ t, runsTo (.cache base 0x19 off) s p t ∧ t.cache c = k ∧ rest t ∧ committed s t p) ∧
        (∃ t, runsTo (.cache base 0x15 off) s p t ∧ dropped t ∧ rest t ∧ committed s t p)) ∧
      (c = .dcache → l.dirty = true →
        (∃ t, runsTo (.cache base 0x19 off) s p t ∧ writing t 0x19 false ∧ rest t) ∧
        (∃ t, runsTo (.cache base 0x15 off) s p t ∧ writing t 0x15 true ∧ rest t))) ∧
  ∀ (s : State) (base : Reg) (op : Nat) (off : BitVec 16) (c : CacheId),
    (op = 0x10 ∧ c = .icache ∨ op ∈ [0x11, 0x15, 0x19] ∧ c = .dcache) → s.pipe.mem.memIssued = true →
      let waiting : State := { s with active := .memory }
      ((s.cache c).ctrl ≠ .idle → exec (.cache base op off) waiting = .next { waiting with stall := true }) ∧
      ((s.cache c).ctrl = .idle →
        exec (.cache base op off) waiting = .next { waiting with stall := false, intShadow := false } ∧
        (s.pipe.mem.exc = [] → s.pipe.mem.dest = .none →
          exec (.cache base op off) (advance { s with active := .writeback }) =
            .next (haltCheck (advance { s with active := .writeback }) s.pipe.mem.pc)))

/-! ### The two caches and the bus (spec/20_memory.md) -/

/-- R141, R143: a lookup finds the lowest way whose line is valid and has the address's tag; the victim of a miss is the
first invalid way at the index or, if all are valid, the way with the oldest stamp, the lowest among equals. -/
def Obligations.WaySelection : Prop :=
  (∀ (s : State) (c : CacheId) (pa : Word),
    let g := s.cfg.geom c
    let hit (w : Nat) := ((s.cache c).line g w (g.index pa)).valid = true ∧
      ((s.cache c).line g w (g.index pa)).tag = g.tag pa
    (∀ w, lookup s c pa = some w ↔ w < g.ways ∧ hit w ∧ ∀ v < w, ¬hit v) ∧
    (lookup s c pa = none ↔ ∀ w < g.ways, ¬hit w)) ∧
  ∀ (k : Cache) (g : Geometry) (i : Nat), 1 ≤ g.ways →
    let w := victim k g i
    let valid (v : Nat) := (k.line g v i).valid = true
    let stamp (v : Nat) := (k.line g v i).lastAccess
    w < g.ways ∧
      ((∃ v < g.ways, ¬valid v) → ¬valid w ∧ ∀ v < w, valid v) ∧
      ((∀ v < g.ways, valid v) → (∀ v < g.ways, stamp w ≤ stamp v) ∧ ∀ v < w, stamp w < stamp v)

/-- R147 to R150: a fill whose words are in memory and always ready, on a free bus, ends after one entry step and one
step per word, one each cycle: the line is valid, clean, tagged, stamped with the cycle it completes in and holds the
memory words in address order, the cache is IDLE, the bus released in that cycle, memory and every other line as
before. -/
def Obligations.FillLoadsLine : Prop :=
  ∀ (s : State) (c : CacheId) (pa : Word) (way : Nat) (mode : AccessMode),
    let g := s.cfg.geom c
    let i := g.index pa
    g.wellFormed = true → way < g.ways → cacheShape g (s.cache c) = true → (s.cache c).ctrl = .fetch →
    (s.cache c).txn = some
      { remaining := g.words, next := 0, addr := g.lineBase pa, way := way, index := i, mode := mode,
        invalidate := false, client := c.client, entered := false, thenFill := none } →
    s.bus.holder = none → s.bus.lastReleaseCycle ≠ some s.cycle → s.env.polls = [] → s.env.quiet = true →
    (∀ n < g.words, mapped s.cfg (g.lineBase pa + BitVec.ofNat 32 (4 * n)) = true ∧
      isDevice s.cfg (g.lineBase pa + BitVec.ofNat 32 (4 * n)) = false) →
      ∃ t, stepsCache c (g.words + 1) s = .next t ∧ (t.cache c).ctrl = .idle ∧ (t.cache c).txn = none ∧
        t.cycle = s.cycle + g.words + 1 ∧
        t.bus = { holder := none, lastReleaseCycle := some (s.cycle + g.words), lastReleaser := some c.client } ∧
        t.mem = s.mem ∧ t.devLog = s.devLog ∧
        ((t.cache c).line g way i).valid = true ∧ ((t.cache c).line g way i).dirty = false ∧
        ((t.cache c).line g way i).tag = g.tag pa ∧ ((t.cache c).line g way i).lastAccess = s.cycle + g.words ∧
        (∀ n < g.words, ((t.cache c).line g way i).data[n]? =
          some (memoryValue s (g.lineBase pa + BitVec.ofNat 32 (4 * n)) .word)) ∧
        ∀ n, n ≠ g.slot way i → (t.cache c).lines[n]? = (s.cache c).lines[n]?

/-- R147 to R150, R162 to R164: a writeback, of an evicted line (WRITEBACK) or for CACHE (OP_WRITEBACK), whose words are
in memory and always ready, on a free bus, ends after one entry step and one step per word, one each cycle: memory
holds the words of the line in address order and every other byte as before; the line is clean, invalid if CACHE asked
for that, and as before in all else; the bus is released; the cache is IDLE, or of an eviction in FETCH with the chained
fill as its transaction, not entered. -/
def Obligations.WritebackStoresLine : Prop :=
  ∀ (s : State) (c : CacheId) (x : Txn),
    let g := s.cfg.geom c
    let k := s.cache c
    let l := k.line g x.way x.index
    let wordAt (n : Nat) := x.addr + BitVec.ofNat 32 (4 * n)
    g.wellFormed = true → g.blockSize ≤ 2 ^ 32 → x.way < g.ways → x.index < g.blockCount → cacheShape g k = true →
    (k.ctrl = .writeback ∨ k.ctrl = .opWriteback) → k.txn = some x → x.remaining = g.words → x.next = 0 →
    x.entered = false → x.client = c.client → s.bus.holder = none → s.bus.lastReleaseCycle ≠ some s.cycle →
    s.env.polls = [] → s.env.quiet = true →
    (∀ n < g.words, mapped s.cfg (wordAt n) = true ∧ isDevice s.cfg (wordAt n) = false) →
      ∃ t, stepsCache c (g.words + 1) s = .next t ∧
        (∀ n < g.words, memoryValue t (wordAt n) .word = l.data.getD n 0#32) ∧
        (∀ a, (∀ n < 4 * g.words, a ≠ (x.addr + BitVec.ofNat 32 n).toNat) → Memory.read t.mem a = Memory.read s.mem a) ∧
        (t.cache c).lines = k.lines.set (g.slot x.way x.index)
          { l with dirty := false, valid := l.valid && !(k.ctrl == .opWriteback && x.invalidate) } ∧
        (t.cache c).hits = k.hits ∧ (t.cache c).misses = k.misses ∧ t.devLog = s.devLog ∧
        t.cycle = s.cycle + g.words + 1 ∧
        t.bus = { holder := none, lastReleaseCycle := some (s.cycle + g.words), lastReleaser := some c.client } ∧
        (∀ f, k.ctrl = .writeback → x.thenFill = some f →
          (t.cache c).ctrl = .fetch ∧ (t.cache c).txn = some
            { remaining := g.words, next := 0, addr := f.addr, way := f.way, index := f.index, mode := f.mode,
              invalidate := false, client := c.client, entered := false, thenFill := none }) ∧
        (k.ctrl = .opWriteback → (t.cache c).ctrl = .idle ∧ (t.cache c).txn = none)

/-- R172 (R170, R171): while a client holds the token no other gets it; after a release no other gets it in the same
cycle, and any gets it in the next. -/
def Obligations.BusTurnaround : Prop :=
  ∀ (s : State) (c d : Client), d ≠ c →
    ((acquireBus s c).1 = true → (acquireBus s c).2.bus.holder = some c ∧ (acquireBus (acquireBus s c).2 d).1 = false) ∧
    (∀ t, releaseBus s c = .next t → t.bus.holder = none ∧ (acquireBus t d).1 = false ∧ (acquireBus t c).1 = true ∧
      (acquireBus (tick t) d).1 = true) ∧
    (s.bus.holder ≠ some c → releaseBus s c = .refused .releaseByNonHolder)

/-- R112, R116: what a word, halfword or byte store puts in memory, the fetch of the same bytes returns. -/
def Obligations.MapperRoundTrip : Prop :=
  ∀ (s : State) (pa v : Word) (w : Width) (c d : Client), isDevice s.cfg pa = false →
    let t := mapperStore s pa w v c
    mapperFetch t pa w d = (BitVec.ofNat 32 (v.toNat % 2 ^ (8 * w.bytes)), t) ∧
      ∀ a, a ∉ (cellsFrom pa (bytesOfValue s.cfg.endian w.bytes v)).map (fun x => x.1.toNat) →
        Memory.read t.mem a = Memory.read s.mem a

/-- R119, R145, R146: the bytes, halfwords and words of a cached word are those memory would hold at the same
addresses, and a cached write followed by a read of any aligned width there agrees with memory written the same way. -/
def Obligations.LanesMatchMemory : Prop :=
  ∀ (e : Endian) (m : Memory) (pa v : Word) (w x : Width) (k : Nat), pa.toNat % 4 = 0 → k < 4 →
    k % w.bytes = 0 → ∀ n < 4, n % x.bytes = 0 →
      let W := valueOfBytes e (Memory.readBytes m pa 4)
      let at_ (n : Nat) := pa + BitVec.ofNat 32 n
      laneRead e x (at_ n) W = valueOfBytes e (Memory.readBytes m (at_ n) x.bytes) ∧
      laneRead e x (at_ n) (laneWrite e w (at_ k) W v) =
        valueOfBytes e (Memory.readBytes (Memory.writeBytes m (at_ k) (bytesOfValue e w.bytes v)) (at_ n) x.bytes)

/-! ### System and coprocessor 0 (spec/43_system.md) -/

/-- R422, R423: SYSCALL and BREAK take Sys and Bp whatever their code field, in either mode, an interrupt requested or
not.
That the `pc` of a bubble is 0 is the model's choice (log entry 17). -/
def Obligations.SyscallAndBreakTrap : Prop :=
  ∀ (s : State) (p : Word) (code : BitVec 20),
    traps (.syscall code) s p { kind := .sys, mode := .any } ∧ traps (.brk code) s p { kind := .bp, mode := .any }

/-- R424: RFE pops the mode and enable stack, keeps every other bit of SR, sets the interrupt shadow and changes
nothing else. And R480, R523: `rfe` with `jr rX` behind it goes to x[rX] in the popped mode, user mode if KUp was set,
whatever interrupt is requested: neither instruction is sampled. -/
def Obligations.RfePopsStatus : Prop :=
  ∀ (s : State) (p : Word), s.userMode = false ∨ s.copUsable 0#2 = true →
    (∃ t, runsTo .rfe s p t ∧ t.sr.extractLsb' 0 4 = s.sr.extractLsb' 2 4 ∧
      t.sr.extractLsb' 4 28 = s.sr.extractLsb' 4 28 ∧ t.intShadow = true ∧ t.cause = s.cause ∧ t.epc = s.epc ∧
      t.badVAddr = s.badVAddr ∧ onlyCp0 s t p) ∧
    ∀ rX : Reg, ∃ t, runPair (encode .rfe) (encode (.jr rX)) s p = .next t ∧ t.pc = readGpr s rX ∧
      t.userMode = s.sr.getLsbD 3 ∧ t.interruptsEnabled = s.sr.getLsbD 2 ∧
      t.sr.extractLsb' 4 28 = s.sr.extractLsb' 4 28 ∧ t.intShadow = false ∧ t.cause = s.cause ∧ t.epc = s.epc ∧
      t.badVAddr = s.badVAddr ∧ sameGpr s t ∧ sameHiLo s t ∧ sameMemory s t ∧ sameCaches s t

/-- R425, R50, R54, R60: MFC0 reads BadVAddr, SR, Cause with the pins in IP[7:2], EPC and PRId into rt and changes
nothing else; of a number without a register it gives the next draw (log entry 4). -/
def Obligations.Mfc0Reads : Prop :=
  ∀ (s : State) (p : Word) (rt : Reg) (n : Nat), s.userMode = false ∨ s.copUsable 0#2 = true → noInterrupt s →
    (∀ c ∈ [(8, s.badVAddr), (12, s.sr), (14, s.epc), (15, s.cfg.prid),
        (13, s.cause.extractLsb' 16 16 ++ s.env.pins ++ s.cause.extractLsb' 0 10)],
      ∃ t, runsTo (.mfc0 rt c.1) s p t ∧ gets t rt c.2 ∧ onlyGpr rt s t p) ∧
    (n ∉ [0, 1, 2, 4, 8, 10, 12, 13, 14, 15] →
      ∃ t, runsTo (.mfc0 rt n) s p t ∧ gets t rt (Config.freeWord s.draws) ∧ t.draws = s.draws + 1 ∧
        onlyGpr rt { s with draws := t.draws } t p)

/-- R426, R53, R55, R56 to R58, R60: MTC0 writes the writable bits of SR or IP[1:0] of Cause, an interrupt requested or
not, and is ignored for every other number that is not refused; nothing else changes. -/
def Obligations.Mtc0Writes : Prop :=
  ∀ (s : State) (p : Word) (rt : Reg) (n : Nat), s.userMode = false ∨ s.copUsable 0#2 = true →
    let v := readGpr s rt
    (∃ t, runsTo (.mtc0 rt 12) s p t ∧ t.sr = v &&& 0xF043FF3F#32 ∧ t.cause = s.cause ∧ t.epc = s.epc ∧
      t.badVAddr = s.badVAddr ∧ t.intShadow = false ∧ onlyCp0 s t p) ∧
    (∃ t, runsTo (.mtc0 rt 13) s p t ∧
      t.cause = s.cause.extractLsb' 10 22 ++ v.extractLsb' 8 2 ++ s.cause.extractLsb' 0 8 ∧ t.sr = s.sr ∧
      t.epc = s.epc ∧ t.badVAddr = s.badVAddr ∧ t.intShadow = false ∧ onlyCp0 s t p) ∧
    (noInterrupt s → n ∉ [0, 1, 2, 4, 10, 12, 13] →
      ∃ t, runsTo (.mtc0 rt n) s p t ∧ sameCp0 s t ∧ t.intShadow = false ∧ onlyCp0 s t p)

/-- R420, R421, R397, R428: without the right to its coprocessor an instruction takes CpU with that coprocessor's
number: COP0 and CACHE in user mode with CU0 clear, coprocessors 1 to 3 in either mode with their bit clear.
That the `pc` of a bubble is 0 is the model's choice (log entry 17). -/
def Obligations.CoprocessorUnusableTraps : Prop :=
  ∀ (s : State) (p : Word) (base rt : Reg) (n op : Nat) (off : BitVec 16) (sub : BitVec 26),
    let cpu (z : BitVec 2) : ExcRecord := { kind := .cpu, mode := .any, cop := z }
    (s.userMode = true → s.copUsable 0#2 = false →
      ∀ i ∈ [Instr.mfc0 rt n, .mtc0 rt n, .rfe, .tlbr, .tlbwi, .tlbwr, .tlbp, .cache base op off],
        traps i s p (cpu 0#2)) ∧
    (s.copUsable 1#2 = false → ∀ i ∈ [Instr.cop1 sub, .lwc1 base n off, .swc1 base n off], traps i s p (cpu 1#2)) ∧
    (s.copUsable 2#2 = false → ∀ i ∈ [Instr.cop2 sub, .lwc2 base n off, .swc2 base n off], traps i s p (cpu 2#2)) ∧
    (s.copUsable 3#2 = false → ∀ i ∈ [Instr.cop3 sub, .lwc3 base n off, .swc3 base n off], traps i s p (cpu 3#2))

/-- R427, R428, R59: what the spec refuses, and only once the instruction is in EX with an empty buffer and a true
guard: the TLB instructions, moves of the TLB registers, and every instruction of a usable coprocessor 1 to 3. -/
def Obligations.RefusedForms : Prop :=
  ∀ (s : State) (base rt : Reg) (n : Nat) (off : BitVec 16) (sub : BitVec 26), s.active = .execute → exGuard s = true →
    (∀ i ∈ [Instr.tlbr, .tlbwi, .tlbwr, .tlbp], exec i s = .refused .tlbAbstraction) ∧
    (∀ r ∈ [0, 1, 2, 4, 10], exec (.mfc0 rt r) s = .refused .tlbAbstraction ∧
      exec (.mtc0 rt r) s = .refused .tlbAbstraction) ∧
    (∀ i ∈ [Instr.cop1 sub, .cop2 sub, .cop3 sub, .lwc1 base n off, .lwc2 base n off, .lwc3 base n off,
        .swc1 base n off, .swc2 base n off, .swc3 base n off], exec i s = .refused .coprocessorAbsent)

/-! ### Exceptions and interrupts (spec/60_exceptions.md) -/

/-- R218, R429, R430, R455: a word that decodes to no instruction takes RI, but CpU(0) if it is a COP0 word and user
mode may not use coprocessor 0.
That the `pc` of a bubble is 0 is the model's choice (log entry 17). -/
def Obligations.ReservedInstructionTraps : Prop :=
  ∀ (s : State) (p w : Word), (∃ r, decode w = .error r) →
    ∃ t, passAlone reservedWord (issue s p w) = .next t ∧
      tookException s t p
        (if opOf w = 0x10#6 ∧ s.userMode = true ∧ s.copUsable 0#2 = false then { kind := .cpu, mode := .any, cop := 0#2 }
         else { kind := .ri, mode := .any })

/-- R450, R474 and R475: whatever instruction stands in WB with records, the selected one is taken: SR, Cause with the
code of its kind and mode, EPC, BadVAddr and the fetch register as the entry says, every slot a bubble, and nothing else
changed.
That the `pc` of a bubble is 0 is the model's choice (log entry 17). -/
def Obligations.ExceptionEntry : Prop :=
  ∀ (i : Instr) (s : State) (r : ExcRecord), s.active = .writeback → selectRecord s.pipe.wb.exc = some r →
    ∃ t, exec i s = .next t ∧
      t.sr.extractLsb' 0 6 = s.sr.extractLsb' 0 4 ++ 0b00#2 ∧ t.sr.extractLsb' 6 26 = s.sr.extractLsb' 6 26 ∧
      t.cause.extractLsb' 2 5 = r.code ∧
      (∀ c ∈ [(ExcKind.int, AccessMode.any, 0#5), (.mod, .store, 1#5), (.tlb, .fetch, 2#5), (.tlb, .load, 2#5),
          (.tlb, .store, 3#5), (.addrErr, .fetch, 4#5), (.addrErr, .load, 4#5), (.addrErr, .store, 5#5), (.ibe, .fetch, 6#5),
          (.dbe, .load, 7#5), (.dbe, .store, 7#5), (.sys, .any, 8#5), (.bp, .any, 9#5), (.ri, .any, 10#5),
          (.cpu, .any, 11#5), (.ov, .any, 12#5), (.tr, .any, 13#5)],
        r.kind = c.1 → r.mode = c.2.1 → t.cause.extractLsb' 2 5 = c.2.2) ∧
      t.cause.extractLsb' 28 2 = (if r.kind = .cpu then r.cop else 0#2) ∧
      t.cause.getLsbD 31 = false ∧ t.cause &&& 0x4FFFFF83#32 = s.cause &&& 0x4FFFFF83#32 ∧
      t.epc = s.pipe.wb.pc ∧
      t.badVAddr = (if r.kind = .addrErr ∨ r.kind = .tlb ∨ r.kind = .mod then r.badVAddr else s.badVAddr) ∧
      t.pc = (if s.sr.getLsbD 22 then (if r.kind = .tlb ∧ r.refill = true then 0xBFC00100#32 else 0xBFC00180#32)
        else (if r.kind = .tlb ∧ r.refill = true then 0x80000000#32 else 0x80000080#32)) ∧
      t.pipe = {} ∧ t.intShadow = false ∧ sameGpr s t ∧ sameHiLo s t ∧ t.mem = s.mem ∧ t.devLog = s.devLog ∧
      sameCaches s t ∧ t.cycle = s.cycle ∧ t.cfg = s.cfg ∧ t.halted = s.halted

/-- R471 to R473: of the records of an instruction the one of the highest priority is taken, the first appended among
equals; the order of the kinds is that of the table, Ov, Tr, Sys, Bp, RI, CpU inside rank 4. -/
def Obligations.PrioritySelection : Prop :=
  (∀ (recs : List ExcRecord) (r : ExcRecord), selectRecord recs = some r ↔
    ∃ before after, recs = before ++ r :: after ∧ (∀ q ∈ before, r.rank < q.rank) ∧ ∀ q ∈ after, r.rank ≤ q.rank) ∧
  (∀ (v : Word) (f : Bool) (z : BitVec 2), List.Pairwise (fun x y => x.rank < y.rank)
    [({ kind := .addrErr, mode := .fetch, badVAddr := v } : ExcRecord),
     { kind := .tlb, mode := .fetch, badVAddr := v, refill := f }, { kind := .ibe, mode := .fetch },
     { kind := .ov, mode := .any }, { kind := .tr, mode := .any }, { kind := .sys, mode := .any },
     { kind := .bp, mode := .any }, { kind := .ri, mode := .any }, { kind := .cpu, mode := .any, cop := z },
     { kind := .addrErr, mode := .load, badVAddr := v }, { kind := .tlb, mode := .load, badVAddr := v, refill := f },
     { kind := .mod, mode := .store, badVAddr := v }, { kind := .dbe, mode := .load }, { kind := .int, mode := .any }]) ∧
  (∀ k ∈ [ExcKind.addrErr, .tlb, .dbe], ∀ v w : Word,
    ExcRecord.rank { kind := k, mode := .load, badVAddr := v } = ExcRecord.rank { kind := k, mode := .store, badVAddr := w })

/-- R461, R462, R463: an interrupt is requested exactly when IEc is set and some pending bit of IP is enabled in IM, the
pins counting as IP[7:2]; and then every instruction that changed no HI, LO or CP0 register in EX and has no exception of
its own, the shadow clear, takes Int instead of having its effect.
That the `pc` of a bubble is 0 is the model's choice (log entry 17). -/
def Obligations.InterruptTaken : Prop :=
  ∀ (s : State) (p : Word) (rs rt rd : Reg) (off : BitVec 16) (target : BitVec 26) (sa n op : Nat) (pa : Word) (b : Bool),
    let int : ExcRecord := { kind := .int, mode := .any }
    let ea := readGpr s rs + off.signExtend 32
    let a := ea &&& 0xFFFFFFFC#32
    (intCond s = true ↔ s.sr.getLsbD 0 = true ∧
      ((∃ k < 2, s.cause.getLsbD (8 + k) = true ∧ s.sr.getLsbD (8 + k) = true) ∨
        ∃ k < 6, s.env.pins.getLsbD k = true ∧ s.sr.getLsbD (10 + k) = true)) ∧
    (intCond s = true → s.intShadow = false →
      (∀ i ∈ [Instr.addu rs rt rd, .subu rs rt rd, .and rs rt rd, .or rs rt rd, .xor rs rt rd, .nor rs rt rd,
          .slt rs rt rd, .sltu rs rt rd, .sllv rs rt rd, .srlv rs rt rd, .srav rs rt rd, .sll rt rd sa, .srl rt rd sa,
          .sra rt rd sa, .addiu rs rt off, .slti rs rt off, .sltiu rs rt off, .andi rs rt off, .ori rs rt off,
          .xori rs rt off, .lui rt off, .mfhi rd, .mflo rd, .beq rs rt off, .bne rs rt off, .blez rs off, .bgtz rs off,
          .bltz rs off, .bgez rs off, .bltzal rs off, .bgezal rs off, .j target, .jal target, .jr rs, .jalr rs rd],
        traps i s p int) ∧
      (∀ c ∈ [(Instr.add rs rt rd, (readGpr s rs).toInt + (readGpr s rt).toInt),
          (Instr.sub rs rt rd, (readGpr s rs).toInt - (readGpr s rt).toInt),
          (Instr.addi rs rt off, (readGpr s rs).toInt + off.toInt)],
        -2 ^ 31 ≤ c.2 → c.2 < 2 ^ 31 → traps c.1 s p int) ∧
      (copAllowed s 0#2 = true →
        (n ∉ [0, 1, 2, 4, 10] → traps (.mfc0 rt n) s p int) ∧
        (n ∉ [0, 1, 2, 4, 10, 12, 13] → traps (.mtc0 rt n) s p int) ∧
        ((addressTranslateUnchecked s ea .load).recs = [] → traps (.cache rs op off) s p int)) ∧
      (∀ c ∈ [(Instr.lb rs rt off, ea, Width.byte, AccessMode.load), (.lbu rs rt off, ea, .byte, .load),
          (.lh rs rt off, ea, .half, .load), (.lhu rs rt off, ea, .half, .load), (.lw rs rt off, ea, .word, .load),
          (.lwl rs rt off, a, .word, .load), (.lwr rs rt off, a, .word, .load), (.sb rs rt off, ea, .byte, .store),
          (.sh rs rt off, ea, .half, .store), (.sw rs rt off, ea, .word, .store)],
        reaches s c.2.1 c.2.2.2 pa b → aligned c.2.1 c.2.2.1 = true → traps c.1 s p int) ∧
      ((∀ k < 4, ∃ q d, reaches s (a + BitVec.ofNat 32 k) .store q d) →
        traps (.swl rs rt off) s p int ∧ traps (.swr rs rt off) s p int))

/-! ### The pipeline (spec/70_reset_and_hazards.md) -/

/-- R530, R531, R532, R39, R174: what a cycle is. And what a step is, the model's own choice (log entry 2, DESIGN CHOICE):
one cycle if an instruction is in WB; from a bubble in WB cycles until one has left WB or the run ends, at most 64; of a
run that has ended the state itself. An instruction word at the fetch register enters the IF slot; each cycle moves
it one slot; in each slot a word that decodes to `i` runs `exec i` with `active` naming the stage, a bubble does
nothing, a word that decodes to nothing only raises. A cycle takes its input (R70, R173: the head of the tape; after it,
in a quiet environment, the pins as they are and no master; log entry 5), runs the pipeline, ICACHE, DCACHE and the
masters' actions in their order, and counts itself (R67).
That the `pc` of a bubble is 0 is the model's choice (log entry 17). -/
def Obligations.StepRunsDecoded : Prop :=
  (∀ (s : State) (pa : Word) (i : Instr), i.wellFormed = true → s.pc.toNat % 4 = 0 → reaches s s.pc .fetch pa false →
    aligned pa .word = true → isDevice s.cfg pa = false → s.mem.readBytes pa 4 = encodeBytes s.cfg.endian i →
      ifPhase s = fillFetch s { pc := s.pc, instr := encode i, bubble := false }) ∧
  (∀ (x : Snapshot) (i : Instr) (s : State), x.bubble = false → decode x.instr = .ok i → runSlot x s = exec i s) ∧
  (∀ (x : Snapshot) (s : State), x.bubble = true → runSlot x s = .next s) ∧
  (∀ (x : Snapshot) (r : Reserved) (s : State), x.bubble = false → decode x.instr = .error r →
    runSlot x s = reservedWord s) ∧
  (∀ s : State, pipelineCycle s =
    andThen (runSlot s.pipe.wb { s with active := .writeback }) fun a =>
      andThen (runSlot a.pipe.mem { a with active := .memory, stall := false }) fun b =>
        if b.stall then .next (b.setWb bubbleSnapshot) else
          andThen (runSlot b.pipe.ex { b with active := .execute }) fun c =>
            andThen (runSlot c.pipe.dec { c with active := .decode }) fun d => .next (ifPhase (advance d))) ∧
  (∀ s : State, advance s =
    { s with pipe := { fetch := bubbleSnapshot, dec := s.pipe.fetch, ex := s.pipe.dec, mem := s.pipe.ex, wb := s.pipe.mem } }) ∧
  (∀ s : State, s.halted = false → s.cfg.wellFormed = true → arraysInBounds s = true → s.pipe.wb.bubble = false →
    step s = cycle s) ∧
  (∀ s : State, s.halted = false → s.cfg.wellFormed = true → arraysInBounds s = true → step s = runCycles 64 s) ∧
  (∀ s : State, runCycles 0 s = .next s) ∧
  (∀ (n : Nat) (s : State), runCycles (n + 1) s =
    andThen (cycle s) fun t => if s.pipe.wb.bubble = true ∧ t.halted = false then runCycles n t else .next t) ∧
  (∀ s : State, cycle s =
    andThen (pipelineCycle (sampleInput s)) fun t =>
      andThen (stepCache t .icache) fun u =>
        andThen (stepCache u .dcache) fun v =>
          andThen (runMasters v v.env.masters) fun w => .next { w with cycle := w.cycle + 1, active := .writeback }) ∧
  (∀ (s : State) (x : CycleInput) (rest : List CycleInput), s.env.tape = x :: rest →
    sampleInput s = { s with env := { s.env with pins := x.pins, masters := x.masters, tape := rest } }) ∧
  (∀ s : State, s.env.tape = [] → s.env.quiet = true → sampleInput s = { s with env := { s.env with masters := [] } }) ∧
  (∀ s : State, s.env.tape = [] → s.env.quiet = false → sampleInput s =
    { s with env := { s.env with pins := (Config.freeInput s.cycle).pins, masters := (Config.freeInput s.cycle).masters } }) ∧
  (∀ s : State, runMasters s [] = .next s) ∧
  (∀ (s : State) (m : MasterAction) (ms : List MasterAction),
    runMasters s (m :: ms) = andThen (masterAct s m) fun t => runMasters t ms) ∧
  (∀ s : State, s.halted = true → step s = .next s)

/-- R130, R531, R453, R142, R144, R145, R116: the IF step. A fetch that fails its checks fills the slot with the NOP word
and its records; a cached word the ICACHE holds fills it from the line, which is stamped, the hit counted; one it does
not hold leaves a bubble and the fetch register, an IDLE ICACHE counting the miss and starting its transaction; an
uncached one is one access, of memory or of a device (a draw, log entry 4). Where Translate sends an aligned address to a
misaligned place, an uncached fetch takes the Mapper's address error and a cached one gets a draw (R110, log entry 16). No
IF step changes more.
That the `pc` of a bubble is 0 is the model's choice (log entry 17). -/
def Obligations.FetchStep : Prop :=
  ∀ (s : State) (pa : Word) (way : Nat),
    let recs := (if s.pc.toNat % 4 = 0 then [] else [({ kind := .addrErr, mode := .fetch, badVAddr := s.pc } : ExcRecord)]) ++
      (addressTranslate s s.pc s.pc .fetch).recs
    let g := s.cfg.icacheGeom
    let l := s.icache.line g way (g.index pa)
    let t := ifPhase s
    (recs ≠ [] → t = fillFetch s { pc := s.pc, instr := 0#32, bubble := false, exc := recs }) ∧
    (s.pc.toNat % 4 = 0 → reaches s s.pc .fetch pa true →
      (s.icache.ctrl = .idle → lookup s .icache pa = some way →
        t = { fillFetch s { pc := s.pc, bubble := false,
                            instr := if aligned pa .word then l.data.getD (g.wordIndex pa) 0#32
                              else Config.freeWord s.draws } with
          draws := s.draws + (if aligned pa .word then 0 else 1)
          icache := { s.icache.setLine g way (g.index pa) { l with lastAccess := s.cycle } with
            hits := s.icache.hits + 1 } }) ∧
      (s.icache.ctrl ≠ .idle ∨ lookup s .icache pa = none →
        t.pc = s.pc ∧ t.pipe = { s.pipe with fetch := bubbleSnapshot } ∧ t.devLog = s.devLog ∧ t.draws = s.draws ∧
          if s.icache.ctrl = .idle then missStarted s .icache pa .fetch t.icache else t.icache = s.icache)) ∧
    (s.pc.toNat % 4 = 0 → reaches s s.pc .fetch pa false →
      t = if aligned pa .word = false then
          fillFetch s { pc := s.pc, instr := 0#32, bubble := false,
                        exc := [{ kind := .addrErr, mode := .fetch, badVAddr := s.pc }] }
        else if isDevice s.cfg pa then
          { fillFetch s { pc := s.pc, instr := Config.freeWord s.draws, bubble := false } with
            draws := s.draws + 1
            devLog := s.devLog ++ [{ client := .icache, addr := pa, bytes := 4, data := none }] }
        else fillFetch s { pc := s.pc, instr := memoryValue s pa .word, bubble := false }) ∧
    sameGpr s t ∧ sameHiLo s t ∧ sameCp0 s t ∧ t.mem = s.mem ∧ t.dcache = s.dcache ∧ sameBus s t ∧ t.cycle = s.cycle ∧
      t.cfg = s.cfg ∧ t.pipe.dec = s.pipe.dec ∧ t.pipe.ex = s.pipe.ex ∧ t.pipe.mem = s.pipe.mem ∧ t.pipe.wb = s.pipe.wb

/-- R544, R543: in a cycle whose MEM step stalls, the EX, ID and IF slots and the fetch register keep their values, the
MEM slot keeps its instruction with no record added, the WB slot receives a bubble and no register is written after
the WB step.
That the `pc` of a bubble is 0 is the model's choice (log entry 17). -/
def Obligations.StallHoldsPipeline : Prop :=
  ∀ s u v : State, wbPhase s = .next u → memPhase u = .next v → v.stall = true →
    ∃ t, pipelineCycle s = .next t ∧ t.pc = u.pc ∧ t.pipe.ex = u.pipe.ex ∧ t.pipe.dec = u.pipe.dec ∧
      t.pipe.fetch = u.pipe.fetch ∧ t.pipe.wb = bubbleSnapshot ∧
      (t.pipe.mem = u.pipe.mem ∨ t.pipe.mem = { u.pipe.mem with memIssued := true }) ∧ t.gpr = u.gpr ∧ t.hi = u.hi ∧
      t.lo = u.lo ∧ t.sr = u.sr ∧ t.cause = u.cause ∧ t.epc = u.epc ∧ t.badVAddr = u.badVAddr ∧ t.mem = u.mem

/-- R533, R536, R537, R561: results in flight are used at once. First, whatever stands in EX, MEM and WB when an
instruction is decoded, each source is tagged by R533 and, when the instruction executes, is the result of the youngest
older writer, final by then, or the register file's value where none is in flight. Then, pairs one right behind the other,
without a stall: the new value as an operand (ADDU, MFLO), after a load (counted as load use by R535), as the data and
the base of an access, as a branch's operand, and as what LWL merges into. -/
def Obligations.BackToBackForwarding : Prop :=
  (∀ (s u w x : State) (i : Instr) (r : Reg), s.pipe.dec.bubble = false → decode s.pipe.dec.instr = .ok i →
    s.pipe.mem.exc = [] → idPhase s = .next u → wbPhase (advance u) = .next w → memPhase w = .next x →
      let tag := if r = 0 then OperandSource.architectural 0
        else if s.pipe.ex.destReg = some r then .forwarded .execute r
        else if s.pipe.mem.destReg = some r then .forwarded .memory r
        else if s.pipe.wb.destReg = some r then .forwarded .writeback r
        else .architectural r
      let newest := if r = 0 then 0#32
        else if s.pipe.ex.destReg = some r then x.pipe.mem.result
        else if s.pipe.mem.destReg = some r then s.pipe.mem.result
        else readGpr s r
      ((decodeOut i).src1 = .reg r → u.pipe.dec.opA = tag ∧ operandValue x x.pipe.ex.opA = newest) ∧
      ((decodeOut i).src2 = .reg r → u.pipe.dec.opB = tag ∧ operandValue x x.pipe.ex.opB = newest)) ∧
  ∀ (s : State) (p : Word) (r1 r2 r3 r4 base : Reg) (off off' : BitVec 16) (pa pa' : Word), r1 ≠ 0 → intCond s = false →
    let sum := readGpr s r2 + readGpr s r3
    let loaded := memoryValue s pa .word
    let ea := readGpr s base + off.signExtend 32
    let newer (v : Word) (q : Reg) := if q = r1 then v else readGpr s q
    (∃ t, runPair (encode (.addu r2 r3 r1)) (encode (.addu r1 0 r4)) s p = .next t ∧ gets t r4 sum ∧
      (r4 ≠ r1 → gets t r1 sum) ∧ t.loadUseEvents = s.loadUseEvents) ∧
    (∃ t, runPair (encode (.mult r2 r3)) (encode (.mflo r4)) s p = .next t ∧
      gets t r4 (readGpr s r2 * readGpr s r3)) ∧
    (∃ t, runPair (encode (.addu r2 r3 r1)) (encode (.beq r1 r4 off)) s p = .next t ∧
      t.pc = if sum = newer sum r4 then p + 8#32 + (off.signExtend 32 <<< 2) else s.pc) ∧
    (reaches s (newer sum base + off.signExtend 32) .store pa false →
      aligned (newer sum base + off.signExtend 32) .word = true → aligned pa .word = true → isDevice s.cfg pa = false →
      ∃ t, runPair (encode (.addu r2 r3 r1)) (encode (.sw base r1 off)) s p = .next t ∧
        stored s t (cellsFrom pa (bytesOfValue s.cfg.endian 4 sum))) ∧
    (reaches s (sum + off.signExtend 32) .load pa false → aligned (sum + off.signExtend 32) .word = true →
      aligned pa .word = true → isDevice s.cfg pa = false →
      ∃ t, runPair (encode (.addu r2 r3 r1)) (encode (.lw r1 r4 off)) s p = .next t ∧ gets t r4 loaded) ∧
    (reaches s ea .load pa false → aligned ea .word = true → aligned pa .word = true → isDevice s.cfg pa = false →
      (∃ t, runPair (encode (.lw base r1 off)) (encode (.addu r1 r2 r4)) s p = .next t ∧
        gets t r4 (loaded + newer loaded r2) ∧ t.loadUseEvents = s.loadUseEvents + (if r2 = r1 then 2 else 1)) ∧
      (reaches s ((newer loaded r3 + off'.signExtend 32) &&& 0xFFFFFFFC#32) .load pa' false → aligned pa' .word = true →
        isDevice s.cfg pa' = false →
        ∃ t, runPair (encode (.lw base r1 off)) (encode (.lwl r3 r1 off')) s p = .next t ∧
          gets t r1 (lwlMerge s.cfg.endian ((newer loaded r3 + off'.signExtend 32).toNat % 4) (memoryValue s pa' .word)
            loaded)))

/-! ### Rules over every instruction -/

/-- R12, R300, R427, R428: `exec` answers a next state for every instruction in every stage, but for the forms R427 and
R428 refuse in EX under a true guard. -/
def Obligations.ExecAnswersNext : Prop :=
  ∀ (i : Instr) (s : State),
    (s.active = .execute → exGuard s = true → refusedForm i = false) → ∃ t, exec i s = .next t

/-- R454, R540, R120, R121: a record stops every side effect. An instruction in EX that holds one, or whose elder in MEM
does, changes only its own snapshot, keeps its records and is not marked; one that enters MEM with a record does not
stall and changes no memory, device, cache, bus or register. -/
def Obligations.RecordsBlockEffects : Prop :=
  (∀ (i : Instr) (s : State), s.active = .execute → exGuard s = false →
    ∃ x, exec i s = .next (s.setEx x) ∧ x.exSideEffect = s.pipe.ex.exSideEffect ∧ s.pipe.ex.exc <+: x.exc ∧
      x.pc = s.pipe.ex.pc) ∧
  (∀ (i : Instr) (s : State), s.active = .memory → s.pipe.mem.exc ≠ [] → s.pipe.mem.memIssued = false →
    ∃ t, exec i s = .next t ∧ t.stall = false ∧ t.mem = s.mem ∧ t.devLog = s.devLog ∧ sameCaches s t ∧ t.gpr = s.gpr ∧
      sameHiLo s t ∧ sameCp0 s t ∧ t.pc = s.pc ∧ t.draws = s.draws)

/-- R35, R548, R34: a general register changes only in WB, only the one the snapshot names, to its result, and only if
the instruction holds no record; HI changes only by MULT, MULTU, DIV, DIVU and MTHI, LO only by those four and MTLO, in
EX. -/
def Obligations.RegisterWriters : Prop :=
  ∀ (i : Instr) (s t : State), exec i s = .next t →
    (∀ r, readGpr t r ≠ readGpr s r → s.active = .writeback ∧ s.pipe.wb.exc = [] ∧
      s.pipe.wb.dest.destReg = some r ∧ readGpr t r = s.pipe.wb.result) ∧
    (t.hi ≠ s.hi → s.active = .execute ∧
      ∃ rs rt, i = .mult rs rt ∨ i = .multu rs rt ∨ i = .div rs rt ∨ i = .divu rs rt ∨ i = .mthi rs) ∧
    (t.lo ≠ s.lo → s.active = .execute ∧
      ∃ rs rt, i = .mult rs rt ∨ i = .multu rs rt ∨ i = .div rs rt ∨ i = .divu rs rt ∨ i = .mtlo rs)

/-- R53, R55 to R57, R485: SR changes only by MTC0 of 12 and RFE in EX and by exception entry in WB, Cause only by MTC0
of 13 in EX and by entry, EPC and BadVAddr only by entry. -/
def Obligations.Cp0Writers : Prop :=
  ∀ (i : Instr) (s t : State), exec i s = .next t →
    let entry := s.active = .writeback ∧ s.pipe.wb.exc ≠ []
    (t.sr ≠ s.sr → entry ∨ s.active = .execute ∧ (i = .rfe ∨ ∃ rt, i = .mtc0 rt 12)) ∧
    (t.cause ≠ s.cause → entry ∨ s.active = .execute ∧ ∃ rt, i = .mtc0 rt 13) ∧
    (t.epc ≠ s.epc → entry) ∧ (t.badVAddr ≠ s.badVAddr → entry)

/-- R474, R485, R421: user mode without coprocessor 0 cannot change its own mode or SR: an instruction run from it
leaves SR as it is, or takes an exception, which enters kernel mode at one of the four vectors. -/
def Obligations.UserModeConfined : Prop :=
  ∀ (i : Instr) (s t : State) (p : Word), s.userMode = true → s.copUsable 0#2 = false → runsTo i s p t →
    (t.sr = s.sr ∧ t.cause = s.cause ∧ t.epc = s.epc ∧ t.badVAddr = s.badVAddr) ∨
    (t.userMode = false ∧ t.interruptsEnabled = false ∧ t.epc = p ∧ sameGpr s t ∧ t.mem = s.mem ∧
      t.pc ∈ [0xBFC00100#32, 0xBFC00180#32, 0x80000000#32, 0x80000080#32])

/-- R470, R476, R545: an instruction alone that does not stall either commits, with no exception entered, or takes
exactly one exception and has no other effect, memory, caches and devices included.
That the `pc` of a bubble is 0 is the model's choice (log entry 17). -/
def Obligations.EffectOrException : Prop :=
  ∀ (i : Instr) (s t : State) (p : Word), runsTo i s p t → t.stall = false →
    (∃ r, tookException s t p r) ∨
    (t.epc = s.epc ∧ t.badVAddr = s.badVAddr ∧ t.halted = (s.halted || haltsAt s p) ∧ t.pipe.wb.pc = p ∧ t.pipe.wb.exc = [])

/-- R522, R580: right after reset, whatever the registers hold, an instruction that is neither a load, a store, CACHE
nor a transfer, loaded where the machine fetches (log entry 8), has in one step (log entry 2) exactly the effect it has alone. That
`State.reset` runs it so rests on its parameters, its memory and its quiet environment, the model's choices of log entries
1, 3, 5 and 7. -/
def Obligations.FirstInstructionRuns : Prop :=
  ∀ (g : Vector Word 32) (hi lo : Word) (i : Instr), i.wellFormed = true → computes i = true →
    let s : State := { State.reset with gpr := g, hi := hi, lo := lo }
    ∀ u, runsTo i s 0xBFC00000#32 u →
      ∃ t, step (s.withFetchWord 32 (encode i).toNat) = .next t ∧ t.gpr = u.gpr ∧ t.hi = u.hi ∧ t.lo = u.lo ∧ t.sr = u.sr ∧
        t.cause = u.cause ∧ t.epc = u.epc ∧ t.badVAddr = u.badVAddr

/-! ### Reset and invariants -/

/-- R71, R520, R523: the values the spec gives for reset, for every parameters of a run; no cache holds any line, so
that kseg0 may be used at once.
That the `pc` of a bubble is 0 is the model's choice (log entry 17). -/
def Obligations.ResetState : Prop :=
  ∀ p : Params,
    let s := State.resetOf p
    readGpr s 0 = 0#32 ∧ s.pc = p.resetPc ∧ s.pipe = {} ∧ s.intShadow = false ∧ s.sr.getLsbD 22 = true ∧
    s.userMode = false ∧ s.interruptsEnabled = false ∧ s.sr.getLsbD 17 = false ∧ s.isolated = false ∧
    s.sr &&& 0x0FBC00C0#32 = 0#32 ∧ readCause s &&& 0xCFFF0083#32 = 0#32 ∧
    (readCause s).extractLsb' 10 6 = s.env.pins ∧ cp0Read s 15 = .value p.prid ∧
    (∀ (c : CacheId) (pa : Word), lookup s c pa = none) ∧
    (∀ l ∈ s.icache.lines ++ s.dcache.lines, l.valid = false ∧ l.dirty = false ∧ l.lastAccess = 0) ∧
    s.icache.lines.length = p.icacheGeom.ways * p.icacheGeom.blockCount ∧
    s.dcache.lines.length = p.dcacheGeom.ways * p.dcacheGeom.blockCount ∧
    s.icache.ctrl = .idle ∧ s.icache.txn = none ∧ s.icache.hits = 0 ∧ s.icache.misses = 0 ∧
    s.dcache.ctrl = .idle ∧ s.dcache.txn = none ∧ s.dcache.hits = 0 ∧ s.dcache.misses = 0 ∧
    s.bus = { holder := none, lastReleaseCycle := none, lastReleaser := none } ∧ s.cycle = 0 ∧ s.loadUseEvents = 0

/-- Every step keeps memory in its canonical form. -/
def Obligations.MemoryStaysCanonical : Prop := ∀ s t : State, memoryCanonical s → step s = .next t → memoryCanonical t

/-- R31, R51, R54, R485: every step keeps the bits of SR and Cause that read zero at zero, r0 at zero in the register
file itself, and the parameters of the run. -/
def Obligations.StatusStaysLegal : Prop :=
  ∀ s t : State, statusLegal s → step s = .next t → statusLegal t ∧ t.cfg = s.cfg

/-- R39, R64, R148, R150, R153, R172: every step keeps the caches and the bus consistent: a cache is IDLE exactly
without a transaction, holds the token exactly while its transaction has entered, ICACHE is never dirty and never
writes back, and a bubble in a slot wraps the NOP word without records. And R62, R63: from a state whose line arrays
have the shape of their geometry a step leads to one whose arrays have, and never to a fault. -/
def Obligations.CachesAndBusStayConsistent : Prop :=
  (∀ s t : State, cachesConsistent s → step s = .next t → cachesConsistent t) ∧
  ∀ s : State, arraysInBounds s = true →
    (∀ t, step s = .next t → arraysInBounds t = true) ∧ ∀ f, step s ≠ .fault f

/-- The invariants hold at reset, and its caches have the shape of their geometry. -/
def Obligations.InvariantsAtReset : Prop :=
  memoryCanonical State.reset ∧ statusLegal State.reset ∧ cachesConsistent State.reset ∧ arraysInBounds State.reset = true
end

