-- ==== Sys2Proof/Laws/State.lean ====
section
/-! SUPPORT. One lemma per field per update: what each named update of State leaves in each field. -/

namespace Sys2Proof.Machine


/-! ### setDec -/

@[simp] theorem setDec_cfg (s : State) (x : Snapshot) : (s.setDec x).cfg = s.cfg := rfl
@[simp] theorem setDec_gpr (s : State) (x : Snapshot) : (s.setDec x).gpr = s.gpr := rfl
@[simp] theorem setDec_hi (s : State) (x : Snapshot) : (s.setDec x).hi = s.hi := rfl
@[simp] theorem setDec_lo (s : State) (x : Snapshot) : (s.setDec x).lo = s.lo := rfl
@[simp] theorem setDec_pc (s : State) (x : Snapshot) : (s.setDec x).pc = s.pc := rfl
@[simp] theorem setDec_pipe (s : State) (x : Snapshot) : (s.setDec x).pipe = { s.pipe with dec := x } := rfl
@[simp] theorem setDec_intShadow (s : State) (x : Snapshot) : (s.setDec x).intShadow = s.intShadow := rfl
@[simp] theorem setDec_sr (s : State) (x : Snapshot) : (s.setDec x).sr = s.sr := rfl
@[simp] theorem setDec_cause (s : State) (x : Snapshot) : (s.setDec x).cause = s.cause := rfl
@[simp] theorem setDec_epc (s : State) (x : Snapshot) : (s.setDec x).epc = s.epc := rfl
@[simp] theorem setDec_badVAddr (s : State) (x : Snapshot) : (s.setDec x).badVAddr = s.badVAddr := rfl
@[simp] theorem setDec_icache (s : State) (x : Snapshot) : (s.setDec x).icache = s.icache := rfl
@[simp] theorem setDec_dcache (s : State) (x : Snapshot) : (s.setDec x).dcache = s.dcache := rfl
@[simp] theorem setDec_bus (s : State) (x : Snapshot) : (s.setDec x).bus = s.bus := rfl
@[simp] theorem setDec_cycle (s : State) (x : Snapshot) : (s.setDec x).cycle = s.cycle := rfl
@[simp] theorem setDec_loadUseEvents (s : State) (x : Snapshot) : (s.setDec x).loadUseEvents = s.loadUseEvents := rfl
@[simp] theorem setDec_mem (s : State) (x : Snapshot) : (s.setDec x).mem = s.mem := rfl
@[simp] theorem setDec_requests (s : State) (x : Snapshot) : (s.setDec x).requests = s.requests := rfl
@[simp] theorem setDec_devLog (s : State) (x : Snapshot) : (s.setDec x).devLog = s.devLog := rfl
@[simp] theorem setDec_env (s : State) (x : Snapshot) : (s.setDec x).env = s.env := rfl
@[simp] theorem setDec_draws (s : State) (x : Snapshot) : (s.setDec x).draws = s.draws := rfl
@[simp] theorem setDec_active (s : State) (x : Snapshot) : (s.setDec x).active = s.active := rfl
@[simp] theorem setDec_stall (s : State) (x : Snapshot) : (s.setDec x).stall = s.stall := rfl
@[simp] theorem setDec_halted (s : State) (x : Snapshot) : (s.setDec x).halted = s.halted := rfl

/-! ### setEx -/

@[simp] theorem setEx_cfg (s : State) (x : Snapshot) : (s.setEx x).cfg = s.cfg := rfl
@[simp] theorem setEx_gpr (s : State) (x : Snapshot) : (s.setEx x).gpr = s.gpr := rfl
@[simp] theorem setEx_hi (s : State) (x : Snapshot) : (s.setEx x).hi = s.hi := rfl
@[simp] theorem setEx_lo (s : State) (x : Snapshot) : (s.setEx x).lo = s.lo := rfl
@[simp] theorem setEx_pc (s : State) (x : Snapshot) : (s.setEx x).pc = s.pc := rfl
@[simp] theorem setEx_pipe (s : State) (x : Snapshot) : (s.setEx x).pipe = { s.pipe with ex := x } := rfl
@[simp] theorem setEx_intShadow (s : State) (x : Snapshot) : (s.setEx x).intShadow = s.intShadow := rfl
@[simp] theorem setEx_sr (s : State) (x : Snapshot) : (s.setEx x).sr = s.sr := rfl
@[simp] theorem setEx_cause (s : State) (x : Snapshot) : (s.setEx x).cause = s.cause := rfl
@[simp] theorem setEx_epc (s : State) (x : Snapshot) : (s.setEx x).epc = s.epc := rfl
@[simp] theorem setEx_badVAddr (s : State) (x : Snapshot) : (s.setEx x).badVAddr = s.badVAddr := rfl
@[simp] theorem setEx_icache (s : State) (x : Snapshot) : (s.setEx x).icache = s.icache := rfl
@[simp] theorem setEx_dcache (s : State) (x : Snapshot) : (s.setEx x).dcache = s.dcache := rfl
@[simp] theorem setEx_bus (s : State) (x : Snapshot) : (s.setEx x).bus = s.bus := rfl
@[simp] theorem setEx_cycle (s : State) (x : Snapshot) : (s.setEx x).cycle = s.cycle := rfl
@[simp] theorem setEx_loadUseEvents (s : State) (x : Snapshot) : (s.setEx x).loadUseEvents = s.loadUseEvents := rfl
@[simp] theorem setEx_mem (s : State) (x : Snapshot) : (s.setEx x).mem = s.mem := rfl
@[simp] theorem setEx_requests (s : State) (x : Snapshot) : (s.setEx x).requests = s.requests := rfl
@[simp] theorem setEx_devLog (s : State) (x : Snapshot) : (s.setEx x).devLog = s.devLog := rfl
@[simp] theorem setEx_env (s : State) (x : Snapshot) : (s.setEx x).env = s.env := rfl
@[simp] theorem setEx_draws (s : State) (x : Snapshot) : (s.setEx x).draws = s.draws := rfl
@[simp] theorem setEx_active (s : State) (x : Snapshot) : (s.setEx x).active = s.active := rfl
@[simp] theorem setEx_stall (s : State) (x : Snapshot) : (s.setEx x).stall = s.stall := rfl
@[simp] theorem setEx_halted (s : State) (x : Snapshot) : (s.setEx x).halted = s.halted := rfl

/-! ### setMem -/

@[simp] theorem setMem_cfg (s : State) (x : Snapshot) : (s.setMem x).cfg = s.cfg := rfl
@[simp] theorem setMem_gpr (s : State) (x : Snapshot) : (s.setMem x).gpr = s.gpr := rfl
@[simp] theorem setMem_hi (s : State) (x : Snapshot) : (s.setMem x).hi = s.hi := rfl
@[simp] theorem setMem_lo (s : State) (x : Snapshot) : (s.setMem x).lo = s.lo := rfl
@[simp] theorem setMem_pc (s : State) (x : Snapshot) : (s.setMem x).pc = s.pc := rfl
@[simp] theorem setMem_pipe (s : State) (x : Snapshot) : (s.setMem x).pipe = { s.pipe with mem := x } := rfl
@[simp] theorem setMem_intShadow (s : State) (x : Snapshot) : (s.setMem x).intShadow = s.intShadow := rfl
@[simp] theorem setMem_sr (s : State) (x : Snapshot) : (s.setMem x).sr = s.sr := rfl
@[simp] theorem setMem_cause (s : State) (x : Snapshot) : (s.setMem x).cause = s.cause := rfl
@[simp] theorem setMem_epc (s : State) (x : Snapshot) : (s.setMem x).epc = s.epc := rfl
@[simp] theorem setMem_badVAddr (s : State) (x : Snapshot) : (s.setMem x).badVAddr = s.badVAddr := rfl
@[simp] theorem setMem_icache (s : State) (x : Snapshot) : (s.setMem x).icache = s.icache := rfl
@[simp] theorem setMem_dcache (s : State) (x : Snapshot) : (s.setMem x).dcache = s.dcache := rfl
@[simp] theorem setMem_bus (s : State) (x : Snapshot) : (s.setMem x).bus = s.bus := rfl
@[simp] theorem setMem_cycle (s : State) (x : Snapshot) : (s.setMem x).cycle = s.cycle := rfl
@[simp] theorem setMem_loadUseEvents (s : State) (x : Snapshot) : (s.setMem x).loadUseEvents = s.loadUseEvents := rfl
@[simp] theorem setMem_mem (s : State) (x : Snapshot) : (s.setMem x).mem = s.mem := rfl
@[simp] theorem setMem_requests (s : State) (x : Snapshot) : (s.setMem x).requests = s.requests := rfl
@[simp] theorem setMem_devLog (s : State) (x : Snapshot) : (s.setMem x).devLog = s.devLog := rfl
@[simp] theorem setMem_env (s : State) (x : Snapshot) : (s.setMem x).env = s.env := rfl
@[simp] theorem setMem_draws (s : State) (x : Snapshot) : (s.setMem x).draws = s.draws := rfl
@[simp] theorem setMem_active (s : State) (x : Snapshot) : (s.setMem x).active = s.active := rfl
@[simp] theorem setMem_stall (s : State) (x : Snapshot) : (s.setMem x).stall = s.stall := rfl
@[simp] theorem setMem_halted (s : State) (x : Snapshot) : (s.setMem x).halted = s.halted := rfl

/-! ### setWb -/

@[simp] theorem setWb_cfg (s : State) (x : Snapshot) : (s.setWb x).cfg = s.cfg := rfl
@[simp] theorem setWb_gpr (s : State) (x : Snapshot) : (s.setWb x).gpr = s.gpr := rfl
@[simp] theorem setWb_hi (s : State) (x : Snapshot) : (s.setWb x).hi = s.hi := rfl
@[simp] theorem setWb_lo (s : State) (x : Snapshot) : (s.setWb x).lo = s.lo := rfl
@[simp] theorem setWb_pc (s : State) (x : Snapshot) : (s.setWb x).pc = s.pc := rfl
@[simp] theorem setWb_pipe (s : State) (x : Snapshot) : (s.setWb x).pipe = { s.pipe with wb := x } := rfl
@[simp] theorem setWb_intShadow (s : State) (x : Snapshot) : (s.setWb x).intShadow = s.intShadow := rfl
@[simp] theorem setWb_sr (s : State) (x : Snapshot) : (s.setWb x).sr = s.sr := rfl
@[simp] theorem setWb_cause (s : State) (x : Snapshot) : (s.setWb x).cause = s.cause := rfl
@[simp] theorem setWb_epc (s : State) (x : Snapshot) : (s.setWb x).epc = s.epc := rfl
@[simp] theorem setWb_badVAddr (s : State) (x : Snapshot) : (s.setWb x).badVAddr = s.badVAddr := rfl
@[simp] theorem setWb_icache (s : State) (x : Snapshot) : (s.setWb x).icache = s.icache := rfl
@[simp] theorem setWb_dcache (s : State) (x : Snapshot) : (s.setWb x).dcache = s.dcache := rfl
@[simp] theorem setWb_bus (s : State) (x : Snapshot) : (s.setWb x).bus = s.bus := rfl
@[simp] theorem setWb_cycle (s : State) (x : Snapshot) : (s.setWb x).cycle = s.cycle := rfl
@[simp] theorem setWb_loadUseEvents (s : State) (x : Snapshot) : (s.setWb x).loadUseEvents = s.loadUseEvents := rfl
@[simp] theorem setWb_mem (s : State) (x : Snapshot) : (s.setWb x).mem = s.mem := rfl
@[simp] theorem setWb_requests (s : State) (x : Snapshot) : (s.setWb x).requests = s.requests := rfl
@[simp] theorem setWb_devLog (s : State) (x : Snapshot) : (s.setWb x).devLog = s.devLog := rfl
@[simp] theorem setWb_env (s : State) (x : Snapshot) : (s.setWb x).env = s.env := rfl
@[simp] theorem setWb_draws (s : State) (x : Snapshot) : (s.setWb x).draws = s.draws := rfl
@[simp] theorem setWb_active (s : State) (x : Snapshot) : (s.setWb x).active = s.active := rfl
@[simp] theorem setWb_stall (s : State) (x : Snapshot) : (s.setWb x).stall = s.stall := rfl
@[simp] theorem setWb_halted (s : State) (x : Snapshot) : (s.setWb x).halted = s.halted := rfl

/-! ### flush -/

@[simp] theorem flush_cfg (s : State) : s.flush.cfg = s.cfg := rfl
@[simp] theorem flush_gpr (s : State) : s.flush.gpr = s.gpr := rfl
@[simp] theorem flush_hi (s : State) : s.flush.hi = s.hi := rfl
@[simp] theorem flush_lo (s : State) : s.flush.lo = s.lo := rfl
@[simp] theorem flush_pc (s : State) : s.flush.pc = s.pc := rfl
@[simp] theorem flush_pipe (s : State) : s.flush.pipe = {} := rfl
@[simp] theorem flush_intShadow (s : State) : s.flush.intShadow = false := rfl
@[simp] theorem flush_sr (s : State) : s.flush.sr = s.sr := rfl
@[simp] theorem flush_cause (s : State) : s.flush.cause = s.cause := rfl
@[simp] theorem flush_epc (s : State) : s.flush.epc = s.epc := rfl
@[simp] theorem flush_badVAddr (s : State) : s.flush.badVAddr = s.badVAddr := rfl
@[simp] theorem flush_icache (s : State) : s.flush.icache = s.icache := rfl
@[simp] theorem flush_dcache (s : State) : s.flush.dcache = s.dcache := rfl
@[simp] theorem flush_bus (s : State) : s.flush.bus = s.bus := rfl
@[simp] theorem flush_cycle (s : State) : s.flush.cycle = s.cycle := rfl
@[simp] theorem flush_loadUseEvents (s : State) : s.flush.loadUseEvents = s.loadUseEvents := rfl
@[simp] theorem flush_mem (s : State) : s.flush.mem = s.mem := rfl
@[simp] theorem flush_requests (s : State) : s.flush.requests = s.requests := rfl
@[simp] theorem flush_devLog (s : State) : s.flush.devLog = s.devLog := rfl
@[simp] theorem flush_env (s : State) : s.flush.env = s.env := rfl
@[simp] theorem flush_draws (s : State) : s.flush.draws = s.draws := rfl
@[simp] theorem flush_active (s : State) : s.flush.active = s.active := rfl
@[simp] theorem flush_stall (s : State) : s.flush.stall = s.stall := rfl
@[simp] theorem flush_halted (s : State) : s.flush.halted = s.halted := rfl

/-! ### drew -/

@[simp] theorem drew_cfg (s : State) (n : Nat) : (s.drew n).cfg = s.cfg := rfl
@[simp] theorem drew_gpr (s : State) (n : Nat) : (s.drew n).gpr = s.gpr := rfl
@[simp] theorem drew_hi (s : State) (n : Nat) : (s.drew n).hi = s.hi := rfl
@[simp] theorem drew_lo (s : State) (n : Nat) : (s.drew n).lo = s.lo := rfl
@[simp] theorem drew_pc (s : State) (n : Nat) : (s.drew n).pc = s.pc := rfl
@[simp] theorem drew_pipe (s : State) (n : Nat) : (s.drew n).pipe = s.pipe := rfl
@[simp] theorem drew_intShadow (s : State) (n : Nat) : (s.drew n).intShadow = s.intShadow := rfl
@[simp] theorem drew_sr (s : State) (n : Nat) : (s.drew n).sr = s.sr := rfl
@[simp] theorem drew_cause (s : State) (n : Nat) : (s.drew n).cause = s.cause := rfl
@[simp] theorem drew_epc (s : State) (n : Nat) : (s.drew n).epc = s.epc := rfl
@[simp] theorem drew_badVAddr (s : State) (n : Nat) : (s.drew n).badVAddr = s.badVAddr := rfl
@[simp] theorem drew_icache (s : State) (n : Nat) : (s.drew n).icache = s.icache := rfl
@[simp] theorem drew_dcache (s : State) (n : Nat) : (s.drew n).dcache = s.dcache := rfl
@[simp] theorem drew_bus (s : State) (n : Nat) : (s.drew n).bus = s.bus := rfl
@[simp] theorem drew_cycle (s : State) (n : Nat) : (s.drew n).cycle = s.cycle := rfl
@[simp] theorem drew_loadUseEvents (s : State) (n : Nat) : (s.drew n).loadUseEvents = s.loadUseEvents := rfl
@[simp] theorem drew_mem (s : State) (n : Nat) : (s.drew n).mem = s.mem := rfl
@[simp] theorem drew_requests (s : State) (n : Nat) : (s.drew n).requests = s.requests := rfl
@[simp] theorem drew_devLog (s : State) (n : Nat) : (s.drew n).devLog = s.devLog := rfl
@[simp] theorem drew_env (s : State) (n : Nat) : (s.drew n).env = s.env := rfl
@[simp] theorem drew_draws (s : State) (n : Nat) : (s.drew n).draws = s.draws + n := rfl
@[simp] theorem drew_active (s : State) (n : Nat) : (s.drew n).active = s.active := rfl
@[simp] theorem drew_stall (s : State) (n : Nat) : (s.drew n).stall = s.stall := rfl
@[simp] theorem drew_halted (s : State) (n : Nat) : (s.drew n).halted = s.halted := rfl

/-! ### setICache -/

@[simp] theorem setICache_cfg (s : State) (k : Cache) : (s.setCache .icache k).cfg = s.cfg := rfl
@[simp] theorem setICache_gpr (s : State) (k : Cache) : (s.setCache .icache k).gpr = s.gpr := rfl
@[simp] theorem setICache_hi (s : State) (k : Cache) : (s.setCache .icache k).hi = s.hi := rfl
@[simp] theorem setICache_lo (s : State) (k : Cache) : (s.setCache .icache k).lo = s.lo := rfl
@[simp] theorem setICache_pc (s : State) (k : Cache) : (s.setCache .icache k).pc = s.pc := rfl
@[simp] theorem setICache_pipe (s : State) (k : Cache) : (s.setCache .icache k).pipe = s.pipe := rfl
@[simp] theorem setICache_intShadow (s : State) (k : Cache) : (s.setCache .icache k).intShadow = s.intShadow := rfl
@[simp] theorem setICache_sr (s : State) (k : Cache) : (s.setCache .icache k).sr = s.sr := rfl
@[simp] theorem setICache_cause (s : State) (k : Cache) : (s.setCache .icache k).cause = s.cause := rfl
@[simp] theorem setICache_epc (s : State) (k : Cache) : (s.setCache .icache k).epc = s.epc := rfl
@[simp] theorem setICache_badVAddr (s : State) (k : Cache) : (s.setCache .icache k).badVAddr = s.badVAddr := rfl
@[simp] theorem setICache_icache (s : State) (k : Cache) : (s.setCache .icache k).icache = k := rfl
@[simp] theorem setICache_dcache (s : State) (k : Cache) : (s.setCache .icache k).dcache = s.dcache := rfl
@[simp] theorem setICache_bus (s : State) (k : Cache) : (s.setCache .icache k).bus = s.bus := rfl
@[simp] theorem setICache_cycle (s : State) (k : Cache) : (s.setCache .icache k).cycle = s.cycle := rfl
@[simp] theorem setICache_loadUseEvents (s : State) (k : Cache) : (s.setCache .icache k).loadUseEvents = s.loadUseEvents := rfl
@[simp] theorem setICache_mem (s : State) (k : Cache) : (s.setCache .icache k).mem = s.mem := rfl
@[simp] theorem setICache_requests (s : State) (k : Cache) : (s.setCache .icache k).requests = s.requests := rfl
@[simp] theorem setICache_devLog (s : State) (k : Cache) : (s.setCache .icache k).devLog = s.devLog := rfl
@[simp] theorem setICache_env (s : State) (k : Cache) : (s.setCache .icache k).env = s.env := rfl
@[simp] theorem setICache_draws (s : State) (k : Cache) : (s.setCache .icache k).draws = s.draws := rfl
@[simp] theorem setICache_active (s : State) (k : Cache) : (s.setCache .icache k).active = s.active := rfl
@[simp] theorem setICache_stall (s : State) (k : Cache) : (s.setCache .icache k).stall = s.stall := rfl
@[simp] theorem setICache_halted (s : State) (k : Cache) : (s.setCache .icache k).halted = s.halted := rfl

/-! ### setDCache -/

@[simp] theorem setDCache_cfg (s : State) (k : Cache) : (s.setCache .dcache k).cfg = s.cfg := rfl
@[simp] theorem setDCache_gpr (s : State) (k : Cache) : (s.setCache .dcache k).gpr = s.gpr := rfl
@[simp] theorem setDCache_hi (s : State) (k : Cache) : (s.setCache .dcache k).hi = s.hi := rfl
@[simp] theorem setDCache_lo (s : State) (k : Cache) : (s.setCache .dcache k).lo = s.lo := rfl
@[simp] theorem setDCache_pc (s : State) (k : Cache) : (s.setCache .dcache k).pc = s.pc := rfl
@[simp] theorem setDCache_pipe (s : State) (k : Cache) : (s.setCache .dcache k).pipe = s.pipe := rfl
@[simp] theorem setDCache_intShadow (s : State) (k : Cache) : (s.setCache .dcache k).intShadow = s.intShadow := rfl
@[simp] theorem setDCache_sr (s : State) (k : Cache) : (s.setCache .dcache k).sr = s.sr := rfl
@[simp] theorem setDCache_cause (s : State) (k : Cache) : (s.setCache .dcache k).cause = s.cause := rfl
@[simp] theorem setDCache_epc (s : State) (k : Cache) : (s.setCache .dcache k).epc = s.epc := rfl
@[simp] theorem setDCache_badVAddr (s : State) (k : Cache) : (s.setCache .dcache k).badVAddr = s.badVAddr := rfl
@[simp] theorem setDCache_icache (s : State) (k : Cache) : (s.setCache .dcache k).icache = s.icache := rfl
@[simp] theorem setDCache_dcache (s : State) (k : Cache) : (s.setCache .dcache k).dcache = k := rfl
@[simp] theorem setDCache_bus (s : State) (k : Cache) : (s.setCache .dcache k).bus = s.bus := rfl
@[simp] theorem setDCache_cycle (s : State) (k : Cache) : (s.setCache .dcache k).cycle = s.cycle := rfl
@[simp] theorem setDCache_loadUseEvents (s : State) (k : Cache) : (s.setCache .dcache k).loadUseEvents = s.loadUseEvents := rfl
@[simp] theorem setDCache_mem (s : State) (k : Cache) : (s.setCache .dcache k).mem = s.mem := rfl
@[simp] theorem setDCache_requests (s : State) (k : Cache) : (s.setCache .dcache k).requests = s.requests := rfl
@[simp] theorem setDCache_devLog (s : State) (k : Cache) : (s.setCache .dcache k).devLog = s.devLog := rfl
@[simp] theorem setDCache_env (s : State) (k : Cache) : (s.setCache .dcache k).env = s.env := rfl
@[simp] theorem setDCache_draws (s : State) (k : Cache) : (s.setCache .dcache k).draws = s.draws := rfl
@[simp] theorem setDCache_active (s : State) (k : Cache) : (s.setCache .dcache k).active = s.active := rfl
@[simp] theorem setDCache_stall (s : State) (k : Cache) : (s.setCache .dcache k).stall = s.stall := rfl
@[simp] theorem setDCache_halted (s : State) (k : Cache) : (s.setCache .dcache k).halted = s.halted := rfl

/-! ### raiseMem -/

@[simp] theorem raiseMem_cfg (s : State) (recs : List ExcRecord) : (s.raiseMem recs).cfg = s.cfg := rfl
@[simp] theorem raiseMem_gpr (s : State) (recs : List ExcRecord) : (s.raiseMem recs).gpr = s.gpr := rfl
@[simp] theorem raiseMem_hi (s : State) (recs : List ExcRecord) : (s.raiseMem recs).hi = s.hi := rfl
@[simp] theorem raiseMem_lo (s : State) (recs : List ExcRecord) : (s.raiseMem recs).lo = s.lo := rfl
@[simp] theorem raiseMem_pc (s : State) (recs : List ExcRecord) : (s.raiseMem recs).pc = s.pc := rfl
@[simp] theorem raiseMem_pipe (s : State) (recs : List ExcRecord) : (s.raiseMem recs).pipe = { s.pipe with mem := s.pipe.mem.raise recs } := rfl
@[simp] theorem raiseMem_intShadow (s : State) (recs : List ExcRecord) : (s.raiseMem recs).intShadow = s.intShadow := rfl
@[simp] theorem raiseMem_sr (s : State) (recs : List ExcRecord) : (s.raiseMem recs).sr = s.sr := rfl
@[simp] theorem raiseMem_cause (s : State) (recs : List ExcRecord) : (s.raiseMem recs).cause = s.cause := rfl
@[simp] theorem raiseMem_epc (s : State) (recs : List ExcRecord) : (s.raiseMem recs).epc = s.epc := rfl
@[simp] theorem raiseMem_badVAddr (s : State) (recs : List ExcRecord) : (s.raiseMem recs).badVAddr = s.badVAddr := rfl
@[simp] theorem raiseMem_icache (s : State) (recs : List ExcRecord) : (s.raiseMem recs).icache = s.icache := rfl
@[simp] theorem raiseMem_dcache (s : State) (recs : List ExcRecord) : (s.raiseMem recs).dcache = s.dcache := rfl
@[simp] theorem raiseMem_bus (s : State) (recs : List ExcRecord) : (s.raiseMem recs).bus = s.bus := rfl
@[simp] theorem raiseMem_cycle (s : State) (recs : List ExcRecord) : (s.raiseMem recs).cycle = s.cycle := rfl
@[simp] theorem raiseMem_loadUseEvents (s : State) (recs : List ExcRecord) : (s.raiseMem recs).loadUseEvents = s.loadUseEvents := rfl
@[simp] theorem raiseMem_mem (s : State) (recs : List ExcRecord) : (s.raiseMem recs).mem = s.mem := rfl
@[simp] theorem raiseMem_requests (s : State) (recs : List ExcRecord) : (s.raiseMem recs).requests = s.requests := rfl
@[simp] theorem raiseMem_devLog (s : State) (recs : List ExcRecord) : (s.raiseMem recs).devLog = s.devLog := rfl
@[simp] theorem raiseMem_env (s : State) (recs : List ExcRecord) : (s.raiseMem recs).env = s.env := rfl
@[simp] theorem raiseMem_draws (s : State) (recs : List ExcRecord) : (s.raiseMem recs).draws = s.draws := rfl
@[simp] theorem raiseMem_active (s : State) (recs : List ExcRecord) : (s.raiseMem recs).active = s.active := rfl
@[simp] theorem raiseMem_stall (s : State) (recs : List ExcRecord) : (s.raiseMem recs).stall = s.stall := rfl
@[simp] theorem raiseMem_halted (s : State) (recs : List ExcRecord) : (s.raiseMem recs).halted = s.halted := rfl

/-! ### markSideEffect -/

@[simp] theorem markSideEffect_cfg (s : State) : s.markSideEffect.cfg = s.cfg := rfl
@[simp] theorem markSideEffect_gpr (s : State) : s.markSideEffect.gpr = s.gpr := rfl
@[simp] theorem markSideEffect_hi (s : State) : s.markSideEffect.hi = s.hi := rfl
@[simp] theorem markSideEffect_lo (s : State) : s.markSideEffect.lo = s.lo := rfl
@[simp] theorem markSideEffect_pc (s : State) : s.markSideEffect.pc = s.pc := rfl
@[simp] theorem markSideEffect_pipe (s : State) : s.markSideEffect.pipe = { s.pipe with ex := { s.pipe.ex with exSideEffect := true } } := rfl
@[simp] theorem markSideEffect_intShadow (s : State) : s.markSideEffect.intShadow = s.intShadow := rfl
@[simp] theorem markSideEffect_sr (s : State) : s.markSideEffect.sr = s.sr := rfl
@[simp] theorem markSideEffect_cause (s : State) : s.markSideEffect.cause = s.cause := rfl
@[simp] theorem markSideEffect_epc (s : State) : s.markSideEffect.epc = s.epc := rfl
@[simp] theorem markSideEffect_badVAddr (s : State) : s.markSideEffect.badVAddr = s.badVAddr := rfl
@[simp] theorem markSideEffect_icache (s : State) : s.markSideEffect.icache = s.icache := rfl
@[simp] theorem markSideEffect_dcache (s : State) : s.markSideEffect.dcache = s.dcache := rfl
@[simp] theorem markSideEffect_bus (s : State) : s.markSideEffect.bus = s.bus := rfl
@[simp] theorem markSideEffect_cycle (s : State) : s.markSideEffect.cycle = s.cycle := rfl
@[simp] theorem markSideEffect_loadUseEvents (s : State) : s.markSideEffect.loadUseEvents = s.loadUseEvents := rfl
@[simp] theorem markSideEffect_mem (s : State) : s.markSideEffect.mem = s.mem := rfl
@[simp] theorem markSideEffect_requests (s : State) : s.markSideEffect.requests = s.requests := rfl
@[simp] theorem markSideEffect_devLog (s : State) : s.markSideEffect.devLog = s.devLog := rfl
@[simp] theorem markSideEffect_env (s : State) : s.markSideEffect.env = s.env := rfl
@[simp] theorem markSideEffect_draws (s : State) : s.markSideEffect.draws = s.draws := rfl
@[simp] theorem markSideEffect_active (s : State) : s.markSideEffect.active = s.active := rfl
@[simp] theorem markSideEffect_stall (s : State) : s.markSideEffect.stall = s.stall := rfl
@[simp] theorem markSideEffect_halted (s : State) : s.markSideEffect.halted = s.halted := rfl

/-! ### writeHiLo -/

@[simp] theorem writeHiLo_cfg (hi lo : Word) (s : State) : (writeHiLo hi lo s).cfg = s.cfg := rfl
@[simp] theorem writeHiLo_gpr (hi lo : Word) (s : State) : (writeHiLo hi lo s).gpr = s.gpr := rfl
@[simp] theorem writeHiLo_hi (hi lo : Word) (s : State) : (writeHiLo hi lo s).hi = hi := rfl
@[simp] theorem writeHiLo_lo (hi lo : Word) (s : State) : (writeHiLo hi lo s).lo = lo := rfl
@[simp] theorem writeHiLo_pc (hi lo : Word) (s : State) : (writeHiLo hi lo s).pc = s.pc := rfl
@[simp] theorem writeHiLo_pipe (hi lo : Word) (s : State) : (writeHiLo hi lo s).pipe = { s.pipe with ex := { s.pipe.ex with exSideEffect := true } } := rfl
@[simp] theorem writeHiLo_intShadow (hi lo : Word) (s : State) : (writeHiLo hi lo s).intShadow = s.intShadow := rfl
@[simp] theorem writeHiLo_sr (hi lo : Word) (s : State) : (writeHiLo hi lo s).sr = s.sr := rfl
@[simp] theorem writeHiLo_cause (hi lo : Word) (s : State) : (writeHiLo hi lo s).cause = s.cause := rfl
@[simp] theorem writeHiLo_epc (hi lo : Word) (s : State) : (writeHiLo hi lo s).epc = s.epc := rfl
@[simp] theorem writeHiLo_badVAddr (hi lo : Word) (s : State) : (writeHiLo hi lo s).badVAddr = s.badVAddr := rfl
@[simp] theorem writeHiLo_icache (hi lo : Word) (s : State) : (writeHiLo hi lo s).icache = s.icache := rfl
@[simp] theorem writeHiLo_dcache (hi lo : Word) (s : State) : (writeHiLo hi lo s).dcache = s.dcache := rfl
@[simp] theorem writeHiLo_bus (hi lo : Word) (s : State) : (writeHiLo hi lo s).bus = s.bus := rfl
@[simp] theorem writeHiLo_cycle (hi lo : Word) (s : State) : (writeHiLo hi lo s).cycle = s.cycle := rfl
@[simp] theorem writeHiLo_loadUseEvents (hi lo : Word) (s : State) : (writeHiLo hi lo s).loadUseEvents = s.loadUseEvents := rfl
@[simp] theorem writeHiLo_mem (hi lo : Word) (s : State) : (writeHiLo hi lo s).mem = s.mem := rfl
@[simp] theorem writeHiLo_requests (hi lo : Word) (s : State) : (writeHiLo hi lo s).requests = s.requests := rfl
@[simp] theorem writeHiLo_devLog (hi lo : Word) (s : State) : (writeHiLo hi lo s).devLog = s.devLog := rfl
@[simp] theorem writeHiLo_env (hi lo : Word) (s : State) : (writeHiLo hi lo s).env = s.env := rfl
@[simp] theorem writeHiLo_draws (hi lo : Word) (s : State) : (writeHiLo hi lo s).draws = s.draws := rfl
@[simp] theorem writeHiLo_active (hi lo : Word) (s : State) : (writeHiLo hi lo s).active = s.active := rfl
@[simp] theorem writeHiLo_stall (hi lo : Word) (s : State) : (writeHiLo hi lo s).stall = s.stall := rfl
@[simp] theorem writeHiLo_halted (hi lo : Word) (s : State) : (writeHiLo hi lo s).halted = s.halted := rfl

/-! ### redirect -/

@[simp] theorem redirect_cfg (a : Word) (s : State) : (redirect a s).cfg = s.cfg := rfl
@[simp] theorem redirect_gpr (a : Word) (s : State) : (redirect a s).gpr = s.gpr := rfl
@[simp] theorem redirect_hi (a : Word) (s : State) : (redirect a s).hi = s.hi := rfl
@[simp] theorem redirect_lo (a : Word) (s : State) : (redirect a s).lo = s.lo := rfl
@[simp] theorem redirect_pc (a : Word) (s : State) : (redirect a s).pc = a := rfl
@[simp] theorem redirect_pipe (a : Word) (s : State) : (redirect a s).pipe = { s.pipe with dec := {}, fetch := {} } := rfl
@[simp] theorem redirect_intShadow (a : Word) (s : State) : (redirect a s).intShadow = s.intShadow := rfl
@[simp] theorem redirect_sr (a : Word) (s : State) : (redirect a s).sr = s.sr := rfl
@[simp] theorem redirect_cause (a : Word) (s : State) : (redirect a s).cause = s.cause := rfl
@[simp] theorem redirect_epc (a : Word) (s : State) : (redirect a s).epc = s.epc := rfl
@[simp] theorem redirect_badVAddr (a : Word) (s : State) : (redirect a s).badVAddr = s.badVAddr := rfl
@[simp] theorem redirect_icache (a : Word) (s : State) : (redirect a s).icache = s.icache := rfl
@[simp] theorem redirect_dcache (a : Word) (s : State) : (redirect a s).dcache = s.dcache := rfl
@[simp] theorem redirect_bus (a : Word) (s : State) : (redirect a s).bus = s.bus := rfl
@[simp] theorem redirect_cycle (a : Word) (s : State) : (redirect a s).cycle = s.cycle := rfl
@[simp] theorem redirect_loadUseEvents (a : Word) (s : State) : (redirect a s).loadUseEvents = s.loadUseEvents := rfl
@[simp] theorem redirect_mem (a : Word) (s : State) : (redirect a s).mem = s.mem := rfl
@[simp] theorem redirect_requests (a : Word) (s : State) : (redirect a s).requests = s.requests := rfl
@[simp] theorem redirect_devLog (a : Word) (s : State) : (redirect a s).devLog = s.devLog := rfl
@[simp] theorem redirect_env (a : Word) (s : State) : (redirect a s).env = s.env := rfl
@[simp] theorem redirect_draws (a : Word) (s : State) : (redirect a s).draws = s.draws := rfl
@[simp] theorem redirect_active (a : Word) (s : State) : (redirect a s).active = s.active := rfl
@[simp] theorem redirect_stall (a : Word) (s : State) : (redirect a s).stall = s.stall := rfl
@[simp] theorem redirect_halted (a : Word) (s : State) : (redirect a s).halted = s.halted := rfl

/-! ### returnFromException -/

@[simp] theorem returnFromException_cfg (s : State) : (returnFromException s).cfg = s.cfg := rfl
@[simp] theorem returnFromException_gpr (s : State) : (returnFromException s).gpr = s.gpr := rfl
@[simp] theorem returnFromException_hi (s : State) : (returnFromException s).hi = s.hi := rfl
@[simp] theorem returnFromException_lo (s : State) : (returnFromException s).lo = s.lo := rfl
@[simp] theorem returnFromException_pc (s : State) : (returnFromException s).pc = s.pc := rfl
@[simp] theorem returnFromException_pipe (s : State) : (returnFromException s).pipe = s.pipe := rfl
@[simp] theorem returnFromException_intShadow (s : State) : (returnFromException s).intShadow = s.intShadow := rfl
@[simp] theorem returnFromException_sr (s : State) : (returnFromException s).sr = popStatus s.sr := rfl
@[simp] theorem returnFromException_cause (s : State) : (returnFromException s).cause = s.cause := rfl
@[simp] theorem returnFromException_epc (s : State) : (returnFromException s).epc = s.epc := rfl
@[simp] theorem returnFromException_badVAddr (s : State) : (returnFromException s).badVAddr = s.badVAddr := rfl
@[simp] theorem returnFromException_icache (s : State) : (returnFromException s).icache = s.icache := rfl
@[simp] theorem returnFromException_dcache (s : State) : (returnFromException s).dcache = s.dcache := rfl
@[simp] theorem returnFromException_bus (s : State) : (returnFromException s).bus = s.bus := rfl
@[simp] theorem returnFromException_cycle (s : State) : (returnFromException s).cycle = s.cycle := rfl
@[simp] theorem returnFromException_loadUseEvents (s : State) : (returnFromException s).loadUseEvents = s.loadUseEvents := rfl
@[simp] theorem returnFromException_mem (s : State) : (returnFromException s).mem = s.mem := rfl
@[simp] theorem returnFromException_requests (s : State) : (returnFromException s).requests = s.requests := rfl
@[simp] theorem returnFromException_devLog (s : State) : (returnFromException s).devLog = s.devLog := rfl
@[simp] theorem returnFromException_env (s : State) : (returnFromException s).env = s.env := rfl
@[simp] theorem returnFromException_draws (s : State) : (returnFromException s).draws = s.draws := rfl
@[simp] theorem returnFromException_active (s : State) : (returnFromException s).active = s.active := rfl
@[simp] theorem returnFromException_stall (s : State) : (returnFromException s).stall = s.stall := rfl
@[simp] theorem returnFromException_halted (s : State) : (returnFromException s).halted = s.halted := rfl

/-! ### takeException -/

@[simp] theorem takeException_cfg (s : State) (p : Word) (r : ExcRecord) : (takeException s p r).cfg = s.cfg := rfl
@[simp] theorem takeException_gpr (s : State) (p : Word) (r : ExcRecord) : (takeException s p r).gpr = s.gpr := rfl
@[simp] theorem takeException_hi (s : State) (p : Word) (r : ExcRecord) : (takeException s p r).hi = s.hi := rfl
@[simp] theorem takeException_lo (s : State) (p : Word) (r : ExcRecord) : (takeException s p r).lo = s.lo := rfl
@[simp] theorem takeException_pc (s : State) (p : Word) (r : ExcRecord) : (takeException s p r).pc = vector s.bootVectors r := rfl
@[simp] theorem takeException_pipe (s : State) (p : Word) (r : ExcRecord) : (takeException s p r).pipe = {} := rfl
@[simp] theorem takeException_intShadow (s : State) (p : Word) (r : ExcRecord) : (takeException s p r).intShadow = false := rfl
@[simp] theorem takeException_sr (s : State) (p : Word) (r : ExcRecord) : (takeException s p r).sr = pushStatus s.sr := rfl
@[simp] theorem takeException_cause (s : State) (p : Word) (r : ExcRecord) : (takeException s p r).cause = causeAtEntry s.cause r := rfl
@[simp] theorem takeException_epc (s : State) (p : Word) (r : ExcRecord) : (takeException s p r).epc = p := rfl
@[simp] theorem takeException_badVAddr (s : State) (p : Word) (r : ExcRecord) : (takeException s p r).badVAddr = (if r.hasAddress then r.badVAddr else s.badVAddr) := rfl
@[simp] theorem takeException_icache (s : State) (p : Word) (r : ExcRecord) : (takeException s p r).icache = s.icache := rfl
@[simp] theorem takeException_dcache (s : State) (p : Word) (r : ExcRecord) : (takeException s p r).dcache = s.dcache := rfl
@[simp] theorem takeException_bus (s : State) (p : Word) (r : ExcRecord) : (takeException s p r).bus = s.bus := rfl
@[simp] theorem takeException_cycle (s : State) (p : Word) (r : ExcRecord) : (takeException s p r).cycle = s.cycle := rfl
@[simp] theorem takeException_loadUseEvents (s : State) (p : Word) (r : ExcRecord) : (takeException s p r).loadUseEvents = s.loadUseEvents := rfl
@[simp] theorem takeException_mem (s : State) (p : Word) (r : ExcRecord) : (takeException s p r).mem = s.mem := rfl
@[simp] theorem takeException_requests (s : State) (p : Word) (r : ExcRecord) : (takeException s p r).requests = s.requests := rfl
@[simp] theorem takeException_devLog (s : State) (p : Word) (r : ExcRecord) : (takeException s p r).devLog = s.devLog := rfl
@[simp] theorem takeException_env (s : State) (p : Word) (r : ExcRecord) : (takeException s p r).env = s.env := rfl
@[simp] theorem takeException_draws (s : State) (p : Word) (r : ExcRecord) : (takeException s p r).draws = s.draws := rfl
@[simp] theorem takeException_active (s : State) (p : Word) (r : ExcRecord) : (takeException s p r).active = s.active := rfl
@[simp] theorem takeException_stall (s : State) (p : Word) (r : ExcRecord) : (takeException s p r).stall = s.stall := rfl
@[simp] theorem takeException_halted (s : State) (p : Word) (r : ExcRecord) : (takeException s p r).halted = s.halted := rfl

/-! ### haltCheck -/

@[simp] theorem haltCheck_cfg (s : State) (p : Word) : (haltCheck s p).cfg = s.cfg := rfl
@[simp] theorem haltCheck_gpr (s : State) (p : Word) : (haltCheck s p).gpr = s.gpr := rfl
@[simp] theorem haltCheck_hi (s : State) (p : Word) : (haltCheck s p).hi = s.hi := rfl
@[simp] theorem haltCheck_lo (s : State) (p : Word) : (haltCheck s p).lo = s.lo := rfl
@[simp] theorem haltCheck_pc (s : State) (p : Word) : (haltCheck s p).pc = s.pc := rfl
@[simp] theorem haltCheck_pipe (s : State) (p : Word) : (haltCheck s p).pipe = s.pipe := rfl
@[simp] theorem haltCheck_intShadow (s : State) (p : Word) : (haltCheck s p).intShadow = s.intShadow := rfl
@[simp] theorem haltCheck_sr (s : State) (p : Word) : (haltCheck s p).sr = s.sr := rfl
@[simp] theorem haltCheck_cause (s : State) (p : Word) : (haltCheck s p).cause = s.cause := rfl
@[simp] theorem haltCheck_epc (s : State) (p : Word) : (haltCheck s p).epc = s.epc := rfl
@[simp] theorem haltCheck_badVAddr (s : State) (p : Word) : (haltCheck s p).badVAddr = s.badVAddr := rfl
@[simp] theorem haltCheck_icache (s : State) (p : Word) : (haltCheck s p).icache = s.icache := rfl
@[simp] theorem haltCheck_dcache (s : State) (p : Word) : (haltCheck s p).dcache = s.dcache := rfl
@[simp] theorem haltCheck_bus (s : State) (p : Word) : (haltCheck s p).bus = s.bus := rfl
@[simp] theorem haltCheck_cycle (s : State) (p : Word) : (haltCheck s p).cycle = s.cycle := rfl
@[simp] theorem haltCheck_loadUseEvents (s : State) (p : Word) : (haltCheck s p).loadUseEvents = s.loadUseEvents := rfl
@[simp] theorem haltCheck_mem (s : State) (p : Word) : (haltCheck s p).mem = s.mem := rfl
@[simp] theorem haltCheck_requests (s : State) (p : Word) : (haltCheck s p).requests = s.requests := rfl
@[simp] theorem haltCheck_devLog (s : State) (p : Word) : (haltCheck s p).devLog = s.devLog := rfl
@[simp] theorem haltCheck_env (s : State) (p : Word) : (haltCheck s p).env = s.env := rfl
@[simp] theorem haltCheck_draws (s : State) (p : Word) : (haltCheck s p).draws = s.draws := rfl
@[simp] theorem haltCheck_active (s : State) (p : Word) : (haltCheck s p).active = s.active := rfl
@[simp] theorem haltCheck_stall (s : State) (p : Word) : (haltCheck s p).stall = s.stall := rfl
@[simp] theorem haltCheck_halted (s : State) (p : Word) : (haltCheck s p).halted = (s.halted || haltsAt s p) := rfl

/-! ### retireRequest -/

@[simp] theorem retireRequest_cfg (s : State) (r : BusRequest) : (retireRequest s r).cfg = s.cfg := rfl
@[simp] theorem retireRequest_gpr (s : State) (r : BusRequest) : (retireRequest s r).gpr = s.gpr := rfl
@[simp] theorem retireRequest_hi (s : State) (r : BusRequest) : (retireRequest s r).hi = s.hi := rfl
@[simp] theorem retireRequest_lo (s : State) (r : BusRequest) : (retireRequest s r).lo = s.lo := rfl
@[simp] theorem retireRequest_pc (s : State) (r : BusRequest) : (retireRequest s r).pc = s.pc := rfl
@[simp] theorem retireRequest_pipe (s : State) (r : BusRequest) : (retireRequest s r).pipe = s.pipe := rfl
@[simp] theorem retireRequest_intShadow (s : State) (r : BusRequest) : (retireRequest s r).intShadow = s.intShadow := rfl
@[simp] theorem retireRequest_sr (s : State) (r : BusRequest) : (retireRequest s r).sr = s.sr := rfl
@[simp] theorem retireRequest_cause (s : State) (r : BusRequest) : (retireRequest s r).cause = s.cause := rfl
@[simp] theorem retireRequest_epc (s : State) (r : BusRequest) : (retireRequest s r).epc = s.epc := rfl
@[simp] theorem retireRequest_badVAddr (s : State) (r : BusRequest) : (retireRequest s r).badVAddr = s.badVAddr := rfl
@[simp] theorem retireRequest_icache (s : State) (r : BusRequest) : (retireRequest s r).icache = s.icache := rfl
@[simp] theorem retireRequest_dcache (s : State) (r : BusRequest) : (retireRequest s r).dcache = s.dcache := rfl
@[simp] theorem retireRequest_bus (s : State) (r : BusRequest) : (retireRequest s r).bus = s.bus := rfl
@[simp] theorem retireRequest_cycle (s : State) (r : BusRequest) : (retireRequest s r).cycle = s.cycle := rfl
@[simp] theorem retireRequest_loadUseEvents (s : State) (r : BusRequest) : (retireRequest s r).loadUseEvents = s.loadUseEvents := rfl
@[simp] theorem retireRequest_mem (s : State) (r : BusRequest) : (retireRequest s r).mem = s.mem := rfl
@[simp] theorem retireRequest_requests (s : State) (r : BusRequest) : (retireRequest s r).requests = s.requests.erase r := rfl
@[simp] theorem retireRequest_devLog (s : State) (r : BusRequest) : (retireRequest s r).devLog = s.devLog := rfl
@[simp] theorem retireRequest_env (s : State) (r : BusRequest) : (retireRequest s r).env = s.env := rfl
@[simp] theorem retireRequest_draws (s : State) (r : BusRequest) : (retireRequest s r).draws = s.draws := rfl
@[simp] theorem retireRequest_active (s : State) (r : BusRequest) : (retireRequest s r).active = s.active := rfl
@[simp] theorem retireRequest_stall (s : State) (r : BusRequest) : (retireRequest s r).stall = s.stall := rfl
@[simp] theorem retireRequest_halted (s : State) (r : BusRequest) : (retireRequest s r).halted = s.halted := rfl

/-! ### advance -/

@[simp] theorem advance_cfg (s : State) : (advance s).cfg = s.cfg := rfl
@[simp] theorem advance_gpr (s : State) : (advance s).gpr = s.gpr := rfl
@[simp] theorem advance_hi (s : State) : (advance s).hi = s.hi := rfl
@[simp] theorem advance_lo (s : State) : (advance s).lo = s.lo := rfl
@[simp] theorem advance_pc (s : State) : (advance s).pc = s.pc := rfl
@[simp] theorem advance_pipe (s : State) : (advance s).pipe = { fetch := {}, dec := s.pipe.fetch, ex := s.pipe.dec, mem := s.pipe.ex, wb := s.pipe.mem } := rfl
@[simp] theorem advance_intShadow (s : State) : (advance s).intShadow = s.intShadow := rfl
@[simp] theorem advance_sr (s : State) : (advance s).sr = s.sr := rfl
@[simp] theorem advance_cause (s : State) : (advance s).cause = s.cause := rfl
@[simp] theorem advance_epc (s : State) : (advance s).epc = s.epc := rfl
@[simp] theorem advance_badVAddr (s : State) : (advance s).badVAddr = s.badVAddr := rfl
@[simp] theorem advance_icache (s : State) : (advance s).icache = s.icache := rfl
@[simp] theorem advance_dcache (s : State) : (advance s).dcache = s.dcache := rfl
@[simp] theorem advance_bus (s : State) : (advance s).bus = s.bus := rfl
@[simp] theorem advance_cycle (s : State) : (advance s).cycle = s.cycle := rfl
@[simp] theorem advance_loadUseEvents (s : State) : (advance s).loadUseEvents = s.loadUseEvents := rfl
@[simp] theorem advance_mem (s : State) : (advance s).mem = s.mem := rfl
@[simp] theorem advance_requests (s : State) : (advance s).requests = s.requests := rfl
@[simp] theorem advance_devLog (s : State) : (advance s).devLog = s.devLog := rfl
@[simp] theorem advance_env (s : State) : (advance s).env = s.env := rfl
@[simp] theorem advance_draws (s : State) : (advance s).draws = s.draws := rfl
@[simp] theorem advance_active (s : State) : (advance s).active = s.active := rfl
@[simp] theorem advance_stall (s : State) : (advance s).stall = s.stall := rfl
@[simp] theorem advance_halted (s : State) : (advance s).halted = s.halted := rfl

/-! ### fillFetch -/

@[simp] theorem fillFetch_cfg (s : State) (x : Snapshot) : (fillFetch s x).cfg = s.cfg := rfl
@[simp] theorem fillFetch_gpr (s : State) (x : Snapshot) : (fillFetch s x).gpr = s.gpr := rfl
@[simp] theorem fillFetch_hi (s : State) (x : Snapshot) : (fillFetch s x).hi = s.hi := rfl
@[simp] theorem fillFetch_lo (s : State) (x : Snapshot) : (fillFetch s x).lo = s.lo := rfl
@[simp] theorem fillFetch_pc (s : State) (x : Snapshot) : (fillFetch s x).pc = s.pc + 4#32 := rfl
@[simp] theorem fillFetch_pipe (s : State) (x : Snapshot) : (fillFetch s x).pipe = { s.pipe with fetch := x } := rfl
@[simp] theorem fillFetch_intShadow (s : State) (x : Snapshot) : (fillFetch s x).intShadow = s.intShadow := rfl
@[simp] theorem fillFetch_sr (s : State) (x : Snapshot) : (fillFetch s x).sr = s.sr := rfl
@[simp] theorem fillFetch_cause (s : State) (x : Snapshot) : (fillFetch s x).cause = s.cause := rfl
@[simp] theorem fillFetch_epc (s : State) (x : Snapshot) : (fillFetch s x).epc = s.epc := rfl
@[simp] theorem fillFetch_badVAddr (s : State) (x : Snapshot) : (fillFetch s x).badVAddr = s.badVAddr := rfl
@[simp] theorem fillFetch_icache (s : State) (x : Snapshot) : (fillFetch s x).icache = s.icache := rfl
@[simp] theorem fillFetch_dcache (s : State) (x : Snapshot) : (fillFetch s x).dcache = s.dcache := rfl
@[simp] theorem fillFetch_bus (s : State) (x : Snapshot) : (fillFetch s x).bus = s.bus := rfl
@[simp] theorem fillFetch_cycle (s : State) (x : Snapshot) : (fillFetch s x).cycle = s.cycle := rfl
@[simp] theorem fillFetch_loadUseEvents (s : State) (x : Snapshot) : (fillFetch s x).loadUseEvents = s.loadUseEvents := rfl
@[simp] theorem fillFetch_mem (s : State) (x : Snapshot) : (fillFetch s x).mem = s.mem := rfl
@[simp] theorem fillFetch_requests (s : State) (x : Snapshot) : (fillFetch s x).requests = s.requests := rfl
@[simp] theorem fillFetch_devLog (s : State) (x : Snapshot) : (fillFetch s x).devLog = s.devLog := rfl
@[simp] theorem fillFetch_env (s : State) (x : Snapshot) : (fillFetch s x).env = s.env := rfl
@[simp] theorem fillFetch_draws (s : State) (x : Snapshot) : (fillFetch s x).draws = s.draws := rfl
@[simp] theorem fillFetch_active (s : State) (x : Snapshot) : (fillFetch s x).active = s.active := rfl
@[simp] theorem fillFetch_stall (s : State) (x : Snapshot) : (fillFetch s x).stall = s.stall := rfl
@[simp] theorem fillFetch_halted (s : State) (x : Snapshot) : (fillFetch s x).halted = s.halted := rfl

/-! ### tick -/

@[simp] theorem tick_cfg (s : State) : (tick s).cfg = s.cfg := rfl
@[simp] theorem tick_gpr (s : State) : (tick s).gpr = s.gpr := rfl
@[simp] theorem tick_hi (s : State) : (tick s).hi = s.hi := rfl
@[simp] theorem tick_lo (s : State) : (tick s).lo = s.lo := rfl
@[simp] theorem tick_pc (s : State) : (tick s).pc = s.pc := rfl
@[simp] theorem tick_pipe (s : State) : (tick s).pipe = s.pipe := rfl
@[simp] theorem tick_intShadow (s : State) : (tick s).intShadow = s.intShadow := rfl
@[simp] theorem tick_sr (s : State) : (tick s).sr = s.sr := rfl
@[simp] theorem tick_cause (s : State) : (tick s).cause = s.cause := rfl
@[simp] theorem tick_epc (s : State) : (tick s).epc = s.epc := rfl
@[simp] theorem tick_badVAddr (s : State) : (tick s).badVAddr = s.badVAddr := rfl
@[simp] theorem tick_icache (s : State) : (tick s).icache = s.icache := rfl
@[simp] theorem tick_dcache (s : State) : (tick s).dcache = s.dcache := rfl
@[simp] theorem tick_bus (s : State) : (tick s).bus = s.bus := rfl
@[simp] theorem tick_cycle (s : State) : (tick s).cycle = s.cycle + 1 := rfl
@[simp] theorem tick_loadUseEvents (s : State) : (tick s).loadUseEvents = s.loadUseEvents := rfl
@[simp] theorem tick_mem (s : State) : (tick s).mem = s.mem := rfl
@[simp] theorem tick_requests (s : State) : (tick s).requests = s.requests := rfl
@[simp] theorem tick_devLog (s : State) : (tick s).devLog = s.devLog := rfl
@[simp] theorem tick_env (s : State) : (tick s).env = s.env := rfl
@[simp] theorem tick_draws (s : State) : (tick s).draws = s.draws := rfl
@[simp] theorem tick_active (s : State) : (tick s).active = .writeback := rfl
@[simp] theorem tick_stall (s : State) : (tick s).stall = s.stall := rfl
@[simp] theorem tick_halted (s : State) : (tick s).halted = s.halted := rfl

/-! ### issue -/

@[simp] theorem issue_cfg (s : State) (p w : Word) : (issue s p w).cfg = s.cfg := rfl
@[simp] theorem issue_gpr (s : State) (p w : Word) : (issue s p w).gpr = s.gpr := rfl
@[simp] theorem issue_hi (s : State) (p w : Word) : (issue s p w).hi = s.hi := rfl
@[simp] theorem issue_lo (s : State) (p w : Word) : (issue s p w).lo = s.lo := rfl
@[simp] theorem issue_pc (s : State) (p w : Word) : (issue s p w).pc = s.pc := rfl
@[simp] theorem issue_pipe (s : State) (p w : Word) : (issue s p w).pipe = { dec := { pc := p, instr := w, bubble := false } } := rfl
@[simp] theorem issue_intShadow (s : State) (p w : Word) : (issue s p w).intShadow = s.intShadow := rfl
@[simp] theorem issue_sr (s : State) (p w : Word) : (issue s p w).sr = s.sr := rfl
@[simp] theorem issue_cause (s : State) (p w : Word) : (issue s p w).cause = s.cause := rfl
@[simp] theorem issue_epc (s : State) (p w : Word) : (issue s p w).epc = s.epc := rfl
@[simp] theorem issue_badVAddr (s : State) (p w : Word) : (issue s p w).badVAddr = s.badVAddr := rfl
@[simp] theorem issue_icache (s : State) (p w : Word) : (issue s p w).icache = s.icache := rfl
@[simp] theorem issue_dcache (s : State) (p w : Word) : (issue s p w).dcache = s.dcache := rfl
@[simp] theorem issue_bus (s : State) (p w : Word) : (issue s p w).bus = s.bus := rfl
@[simp] theorem issue_cycle (s : State) (p w : Word) : (issue s p w).cycle = s.cycle := rfl
@[simp] theorem issue_loadUseEvents (s : State) (p w : Word) : (issue s p w).loadUseEvents = s.loadUseEvents := rfl
@[simp] theorem issue_mem (s : State) (p w : Word) : (issue s p w).mem = s.mem := rfl
@[simp] theorem issue_requests (s : State) (p w : Word) : (issue s p w).requests = s.requests := rfl
@[simp] theorem issue_devLog (s : State) (p w : Word) : (issue s p w).devLog = s.devLog := rfl
@[simp] theorem issue_env (s : State) (p w : Word) : (issue s p w).env = s.env := rfl
@[simp] theorem issue_draws (s : State) (p w : Word) : (issue s p w).draws = s.draws := rfl
@[simp] theorem issue_active (s : State) (p w : Word) : (issue s p w).active = s.active := rfl
@[simp] theorem issue_stall (s : State) (p w : Word) : (issue s p w).stall = s.stall := rfl
@[simp] theorem issue_halted (s : State) (p w : Word) : (issue s p w).halted = s.halted := rfl

/-! ### writeGpr -/

@[simp] theorem writeGpr_cfg (s : State) (r : Reg) (v : Word) : (writeGpr s r v).cfg = s.cfg := by
  unfold writeGpr; split <;> rfl
@[simp] theorem writeGpr_hi (s : State) (r : Reg) (v : Word) : (writeGpr s r v).hi = s.hi := by
  unfold writeGpr; split <;> rfl
@[simp] theorem writeGpr_lo (s : State) (r : Reg) (v : Word) : (writeGpr s r v).lo = s.lo := by
  unfold writeGpr; split <;> rfl
@[simp] theorem writeGpr_pc (s : State) (r : Reg) (v : Word) : (writeGpr s r v).pc = s.pc := by
  unfold writeGpr; split <;> rfl
@[simp] theorem writeGpr_pipe (s : State) (r : Reg) (v : Word) : (writeGpr s r v).pipe = s.pipe := by
  unfold writeGpr; split <;> rfl
@[simp] theorem writeGpr_intShadow (s : State) (r : Reg) (v : Word) : (writeGpr s r v).intShadow = s.intShadow := by
  unfold writeGpr; split <;> rfl
@[simp] theorem writeGpr_sr (s : State) (r : Reg) (v : Word) : (writeGpr s r v).sr = s.sr := by
  unfold writeGpr; split <;> rfl
@[simp] theorem writeGpr_cause (s : State) (r : Reg) (v : Word) : (writeGpr s r v).cause = s.cause := by
  unfold writeGpr; split <;> rfl
@[simp] theorem writeGpr_epc (s : State) (r : Reg) (v : Word) : (writeGpr s r v).epc = s.epc := by
  unfold writeGpr; split <;> rfl
@[simp] theorem writeGpr_badVAddr (s : State) (r : Reg) (v : Word) : (writeGpr s r v).badVAddr = s.badVAddr := by
  unfold writeGpr; split <;> rfl
@[simp] theorem writeGpr_icache (s : State) (r : Reg) (v : Word) : (writeGpr s r v).icache = s.icache := by
  unfold writeGpr; split <;> rfl
@[simp] theorem writeGpr_dcache (s : State) (r : Reg) (v : Word) : (writeGpr s r v).dcache = s.dcache := by
  unfold writeGpr; split <;> rfl
@[simp] theorem writeGpr_bus (s : State) (r : Reg) (v : Word) : (writeGpr s r v).bus = s.bus := by
  unfold writeGpr; split <;> rfl
@[simp] theorem writeGpr_cycle (s : State) (r : Reg) (v : Word) : (writeGpr s r v).cycle = s.cycle := by
  unfold writeGpr; split <;> rfl
@[simp] theorem writeGpr_loadUseEvents (s : State) (r : Reg) (v : Word) : (writeGpr s r v).loadUseEvents = s.loadUseEvents := by
  unfold writeGpr; split <;> rfl
@[simp] theorem writeGpr_mem (s : State) (r : Reg) (v : Word) : (writeGpr s r v).mem = s.mem := by
  unfold writeGpr; split <;> rfl
@[simp] theorem writeGpr_requests (s : State) (r : Reg) (v : Word) : (writeGpr s r v).requests = s.requests := by
  unfold writeGpr; split <;> rfl
@[simp] theorem writeGpr_devLog (s : State) (r : Reg) (v : Word) : (writeGpr s r v).devLog = s.devLog := by
  unfold writeGpr; split <;> rfl
@[simp] theorem writeGpr_env (s : State) (r : Reg) (v : Word) : (writeGpr s r v).env = s.env := by
  unfold writeGpr; split <;> rfl
@[simp] theorem writeGpr_draws (s : State) (r : Reg) (v : Word) : (writeGpr s r v).draws = s.draws := by
  unfold writeGpr; split <;> rfl
@[simp] theorem writeGpr_active (s : State) (r : Reg) (v : Word) : (writeGpr s r v).active = s.active := by
  unfold writeGpr; split <;> rfl
@[simp] theorem writeGpr_stall (s : State) (r : Reg) (v : Word) : (writeGpr s r v).stall = s.stall := by
  unfold writeGpr; split <;> rfl
@[simp] theorem writeGpr_halted (s : State) (r : Reg) (v : Word) : (writeGpr s r v).halted = s.halted := by
  unfold writeGpr; split <;> rfl

/-! ### commit -/

@[simp] theorem commit_cfg (s : State) (x : Snapshot) : (commit s x).cfg = s.cfg := by
  unfold commit; split <;> simp
@[simp] theorem commit_hi (s : State) (x : Snapshot) : (commit s x).hi = s.hi := by
  unfold commit; split <;> simp
@[simp] theorem commit_lo (s : State) (x : Snapshot) : (commit s x).lo = s.lo := by
  unfold commit; split <;> simp
@[simp] theorem commit_pc (s : State) (x : Snapshot) : (commit s x).pc = s.pc := by
  unfold commit; split <;> simp
@[simp] theorem commit_pipe (s : State) (x : Snapshot) : (commit s x).pipe = s.pipe := by
  unfold commit; split <;> simp
@[simp] theorem commit_intShadow (s : State) (x : Snapshot) : (commit s x).intShadow = s.intShadow := by
  unfold commit; split <;> simp
@[simp] theorem commit_sr (s : State) (x : Snapshot) : (commit s x).sr = s.sr := by
  unfold commit; split <;> simp
@[simp] theorem commit_cause (s : State) (x : Snapshot) : (commit s x).cause = s.cause := by
  unfold commit; split <;> simp
@[simp] theorem commit_epc (s : State) (x : Snapshot) : (commit s x).epc = s.epc := by
  unfold commit; split <;> simp
@[simp] theorem commit_badVAddr (s : State) (x : Snapshot) : (commit s x).badVAddr = s.badVAddr := by
  unfold commit; split <;> simp
@[simp] theorem commit_icache (s : State) (x : Snapshot) : (commit s x).icache = s.icache := by
  unfold commit; split <;> simp
@[simp] theorem commit_dcache (s : State) (x : Snapshot) : (commit s x).dcache = s.dcache := by
  unfold commit; split <;> simp
@[simp] theorem commit_bus (s : State) (x : Snapshot) : (commit s x).bus = s.bus := by
  unfold commit; split <;> simp
@[simp] theorem commit_cycle (s : State) (x : Snapshot) : (commit s x).cycle = s.cycle := by
  unfold commit; split <;> simp
@[simp] theorem commit_loadUseEvents (s : State) (x : Snapshot) : (commit s x).loadUseEvents = s.loadUseEvents := by
  unfold commit; split <;> simp
@[simp] theorem commit_mem (s : State) (x : Snapshot) : (commit s x).mem = s.mem := by
  unfold commit; split <;> simp
@[simp] theorem commit_requests (s : State) (x : Snapshot) : (commit s x).requests = s.requests := by
  unfold commit; split <;> simp
@[simp] theorem commit_devLog (s : State) (x : Snapshot) : (commit s x).devLog = s.devLog := by
  unfold commit; split <;> simp
@[simp] theorem commit_env (s : State) (x : Snapshot) : (commit s x).env = s.env := by
  unfold commit; split <;> simp
@[simp] theorem commit_draws (s : State) (x : Snapshot) : (commit s x).draws = s.draws := by
  unfold commit; split <;> simp
@[simp] theorem commit_active (s : State) (x : Snapshot) : (commit s x).active = s.active := by
  unfold commit; split <;> simp
@[simp] theorem commit_stall (s : State) (x : Snapshot) : (commit s x).stall = s.stall := by
  unfold commit; split <;> simp
@[simp] theorem commit_halted (s : State) (x : Snapshot) : (commit s x).halted = (s.halted || haltsAt s x.pc) := by
  unfold commit; split <;> simp [haltsAt]

/-! ### setCache, whichever the cache -/

@[simp] theorem setCache_cfg (s : State) (c : CacheId) (k : Cache) : (s.setCache c k).cfg = s.cfg := by
  cases c <;> rfl
@[simp] theorem setCache_gpr (s : State) (c : CacheId) (k : Cache) : (s.setCache c k).gpr = s.gpr := by
  cases c <;> rfl
@[simp] theorem setCache_hi (s : State) (c : CacheId) (k : Cache) : (s.setCache c k).hi = s.hi := by
  cases c <;> rfl
@[simp] theorem setCache_lo (s : State) (c : CacheId) (k : Cache) : (s.setCache c k).lo = s.lo := by
  cases c <;> rfl
@[simp] theorem setCache_pc (s : State) (c : CacheId) (k : Cache) : (s.setCache c k).pc = s.pc := by
  cases c <;> rfl
@[simp] theorem setCache_pipe (s : State) (c : CacheId) (k : Cache) : (s.setCache c k).pipe = s.pipe := by
  cases c <;> rfl
@[simp] theorem setCache_intShadow (s : State) (c : CacheId) (k : Cache) : (s.setCache c k).intShadow = s.intShadow := by
  cases c <;> rfl
@[simp] theorem setCache_sr (s : State) (c : CacheId) (k : Cache) : (s.setCache c k).sr = s.sr := by
  cases c <;> rfl
@[simp] theorem setCache_cause (s : State) (c : CacheId) (k : Cache) : (s.setCache c k).cause = s.cause := by
  cases c <;> rfl
@[simp] theorem setCache_epc (s : State) (c : CacheId) (k : Cache) : (s.setCache c k).epc = s.epc := by
  cases c <;> rfl
@[simp] theorem setCache_badVAddr (s : State) (c : CacheId) (k : Cache) : (s.setCache c k).badVAddr = s.badVAddr := by
  cases c <;> rfl
@[simp] theorem setCache_bus (s : State) (c : CacheId) (k : Cache) : (s.setCache c k).bus = s.bus := by
  cases c <;> rfl
@[simp] theorem setCache_cycle (s : State) (c : CacheId) (k : Cache) : (s.setCache c k).cycle = s.cycle := by
  cases c <;> rfl
@[simp] theorem setCache_loadUseEvents (s : State) (c : CacheId) (k : Cache) : (s.setCache c k).loadUseEvents = s.loadUseEvents := by
  cases c <;> rfl
@[simp] theorem setCache_mem (s : State) (c : CacheId) (k : Cache) : (s.setCache c k).mem = s.mem := by
  cases c <;> rfl
@[simp] theorem setCache_requests (s : State) (c : CacheId) (k : Cache) : (s.setCache c k).requests = s.requests := by
  cases c <;> rfl
@[simp] theorem setCache_devLog (s : State) (c : CacheId) (k : Cache) : (s.setCache c k).devLog = s.devLog := by
  cases c <;> rfl
@[simp] theorem setCache_env (s : State) (c : CacheId) (k : Cache) : (s.setCache c k).env = s.env := by
  cases c <;> rfl
@[simp] theorem setCache_draws (s : State) (c : CacheId) (k : Cache) : (s.setCache c k).draws = s.draws := by
  cases c <;> rfl
@[simp] theorem setCache_active (s : State) (c : CacheId) (k : Cache) : (s.setCache c k).active = s.active := by
  cases c <;> rfl
@[simp] theorem setCache_stall (s : State) (c : CacheId) (k : Cache) : (s.setCache c k).stall = s.stall := by
  cases c <;> rfl
@[simp] theorem setCache_halted (s : State) (c : CacheId) (k : Cache) : (s.setCache c k).halted = s.halted := by
  cases c <;> rfl

@[simp] theorem cache_setCache (s : State) (c : CacheId) (k : Cache) : (s.setCache c k).cache c = k := by
  cases c <;> rfl

/-! ### Reading general registers -/

@[simp] theorem readGpr_zero (s : State) : readGpr s 0 = 0#32 := rfl

/-- What Cause reads as depends on the stored fields and the pins alone. -/
theorem readCause_congr {s t : State} (h : t.cause = s.cause) (he : t.env = s.env) : readCause t = readCause s := by
  unfold readCause; rw [h, he]

/-- A register file read depends on the register file alone. -/
theorem readGpr_congr {s t : State} (h : t.gpr = s.gpr) (r : Reg) : readGpr t r = readGpr s r := by
  unfold readGpr; rw [h]

theorem readGpr_writeGpr_same (s : State) (r : Reg) (v : Word) :
    readGpr (writeGpr s r v) r = if r = 0 then 0#32 else v := by
  unfold readGpr writeGpr
  split <;> simp_all [Vector.get_eq_getElem]

theorem readGpr_writeGpr_other (s : State) (r q : Reg) (v : Word) (h : q ≠ r) :
    readGpr (writeGpr s r v) q = readGpr s q := by
  unfold writeGpr
  split
  · rfl
  · simp only [readGpr]
    split
    · rfl
    · have hv : r.val ≠ q.val := fun e => h (Fin.ext e.symm)
      simp [Vector.get_eq_getElem, hv]

end Sys2Proof.Machine
end

