-- ==== Sys2Proof/Laws/Alone.lean ====
section
/-! SUPPORT. One instruction alone in the pipeline: the state it stands in at each stage, and what each stage's shared
step answers there. A result of `runAlone` is proved by these, without unfolding a stage. -/

namespace Sys2Proof.Machine

/-! ### andThen -/

@[simp] theorem andThen_next (s : State) (k : State → Out) : andThen (.next s) k = k s := rfl

@[simp] theorem andThen_fault (f : Fault) (k : State → Out) : andThen (.fault f) k = .fault f := rfl

@[simp] theorem andThen_refused (r : Refusal) (k : State → Out) : andThen (.refused r) k = .refused r := rfl

/-- A next state after `andThen` comes from a next state before it. -/
theorem andThen_eq_next {o : Out} {k : State → Out} {t : State} (h : andThen o k = .next t) :
    ∃ u, o = .next u ∧ k u = .next t := by
  cases o with
  | next u => exact ⟨u, rfl, h⟩
  | fault f => cases h
  | refused r => cases h

/-! ### The instruction in each slot -/

/-- The instruction of snapshot `x` alone in EX. -/
def atEx (s : State) (x : Snapshot) : State := { s with pipe := { ex := x }, active := .execute }

/-- The instruction of snapshot `x` alone in MEM. -/
def atMem (s : State) (x : Snapshot) : State := { s with pipe := { mem := x }, active := .memory, stall := false }

/-- The instruction of snapshot `x` alone in WB. -/
def atWb (s : State) (x : Snapshot) : State := { s with pipe := { wb := x }, active := .writeback, stall := false }

/-- The tag of a selector when no older instruction is in flight. -/
def Selector.alone : Selector → OperandSource
  | .reg r => .architectural r
  | .returnAddress => .architectural 31
  | .none => .architectural 0

/-- The snapshot that leaves ID with decoder outputs `d` and records `recs`, no older instruction in flight. -/
def idSnapshot (p w : Word) (d : DecodeOut) (recs : List ExcRecord) : Snapshot :=
  { pc := p, instr := w, bubble := false, src1 := d.src1, src2 := d.src2, dest := d.dest, useShamt := d.useShamt,
    immSext := d.immSext, memRead := d.memRead, memWrite := d.memWrite, reserved := d.reserved, imm := d.imm,
    opA := if d.useShamt then .shiftAmount d.shamt else d.src1.alone,
    opB := match d.src2 with | .none => .immediate d.imm | .reg r => .architectural r | .returnAddress => .architectural 31,
    exc := recs }

theorem forwardTag_alone (x : Snapshot) (r : Reg) : forwardTag { dec := x } r = .architectural r := by
  unfold forwardTag
  split <;> simp_all [Snapshot.destReg]

theorem copCheck_issue (s : State) (p w : Word) (a : Stage) (n : Option (BitVec 2)) :
    copCheck { issue s p w with active := a } n = copCheck s n := rfl

/-- ID leaves the instruction with its decoder outputs, its tags bound to the register file, its load-use count kept. -/
theorem decodeStep_alone (d : DecodeOut) (recs : List ExcRecord) (s : State) (p w : Word) :
    ∃ a, decodeStep d recs { issue s p w with active := .decode } = .next a ∧
      { advance a with active := .execute } = atEx s (idSnapshot p w d recs) := by
  refine ⟨_, rfl, ?_⟩
  obtain ⟨src1, src2, dest, us, se, mr, mw, rsv, imm, shamt⟩ := d
  cases us <;> cases src1 <;> cases src2 <;>
    simp [advance, atEx, idSnapshot, issue, State.setDec, decodedSnapshot, Snapshot.raise, operandA, operandB, sourceOf,
      forwardTag_alone, loadUse, Selector.alone]

/-- The EX snapshot of an instruction alone, with its operand values. -/
def valued (s : State) (x : Snapshot) : Snapshot :=
  { x with valA := operandValue s x.opA, valB := operandValue s x.opB }

theorem operandValue_atEx (s : State) (x : Snapshot) (o : OperandSource) :
    operandValue (atEx s x) o = match o with
      | .architectural r => readGpr s r
      | .immediate v => v
      | .shiftAmount v => v
      | .forwarded _ r => readGpr s r := by
  cases o with
  | forwarded st r => cases st <;> rfl
  | _ => rfl

theorem exGuard_atEx (s : State) (x : Snapshot) : exGuard (atEx s x) = x.exc.isEmpty := by
  simp [exGuard, atEx]

/-- EX alone, with no record before or after computing: the effect runs. -/
theorem exStage_alone (compute : State → Snapshot → Snapshot) (effect : Snapshot → State → Out) (s : State) (x : Snapshot)
    (h : (compute (atEx s x) (resolved (atEx s x))).exc = []) :
    exStage compute effect (atEx s x) =
      effect (compute (atEx s x) (resolved (atEx s x))) (atEx s (compute (atEx s x) (resolved (atEx s x)))) := by
  have e : (atEx s x).setEx (compute (atEx s x) (resolved (atEx s x))) =
      atEx s (compute (atEx s x) (resolved (atEx s x))) := rfl
  unfold exStage
  simp only [e]
  rw [if_pos]
  simp [exGuard_atEx, h]

/-- EX alone, with a record: no effect. -/
theorem exStage_alone_record (compute : State → Snapshot → Snapshot) (effect : Snapshot → State → Out) (s : State)
    (x : Snapshot) (h : (compute (atEx s x) (resolved (atEx s x))).exc ≠ []) :
    exStage compute effect (atEx s x) = .next (atEx s (compute (atEx s x) (resolved (atEx s x)))) := by
  have e : (atEx s x).setEx (compute (atEx s x) (resolved (atEx s x))) =
      atEx s (compute (atEx s x) (resolved (atEx s x))) := rfl
  unfold exStage
  simp only [e]
  rw [if_neg]
  simp [exGuard_atEx, h]

theorem advance_atEx (s : State) (x : Snapshot) :
    { advance (atEx s x) with active := .memory, stall := false } = atMem s x := rfl

theorem advance_atMem (s : State) (x : Snapshot) (a : Stage) (b : Bool) :
    { advance { atMem s x with active := a, stall := b } with active := .writeback, stall := false } = atWb s x := rfl

/-- No interrupt is sampled of an instruction that changed HI, LO or CP0 in EX, or under `noInterrupt`. -/
theorem sampleInterrupt_none (s : State) (h : s.pipe.mem.exSideEffect = true ∨ noInterrupt s) : sampleInterrupt s = s := by
  unfold sampleInterrupt
  rcases h with h | h | h <;> simp [h]

/-- The interrupt sample leaves the instruction as it is or appends one Int record. -/
theorem sampleInterrupt_atMem (s : State) (x : Snapshot) :
    sampleInterrupt (atMem s x) = atMem s x ∨
      sampleInterrupt (atMem s x) = atMem s (x.raise [{ kind := .int, mode := .any }]) := by
  unfold sampleInterrupt
  split
  · exact .inr rfl
  · exact .inl rfl

theorem noInterrupt_atMem (s : State) (x : Snapshot) : noInterrupt (atMem s x) ↔ noInterrupt s := Iff.rfl

/-- MEM without an access, no interrupt sampled. -/
theorem memPass_alone (s : State) (x : Snapshot) (h : x.exSideEffect = true ∨ noInterrupt s) :
    memPass (atMem s x) = .next (atMem { s with intShadow := false } x) := by
  unfold memPass memStep
  rw [sampleInterrupt_none _ (by rcases h with h | h <;> [exact .inl h; exact .inr h])]
  cases hs : s.intShadow <;> simp [noAccess, atMem, hs]

/-- WB of an instruction without a record. -/
theorem wbStage_alone (s : State) (x : Snapshot) (h : x.exc = []) : wbStage (atWb s x) = .next (commit (atWb s x) x) := by
  unfold wbStage
  have : (atWb s x).pipe.wb.exc = [] := h
  simp only [this, selectRecord]
  rfl

/-- WB of an instruction with a record. -/
theorem wbStage_alone_record (s : State) (x : Snapshot) (r : ExcRecord) (h : selectRecord x.exc = some r) :
    wbStage (atWb s x) = .next (takeException (atWb s x) x.pc r) := by
  unfold wbStage
  have : selectRecord (atWb s x).pipe.wb.exc = some r := h
  simp only [this]
  rfl

/-- The records a buffer ends with when an interrupt is sampled on top of one record: that record is still taken. -/
theorem selectRecord_int (r : ExcRecord) (h : r.rank ≤ 90) :
    selectRecord [r, { kind := .int, mode := .any }] = some r := by
  have : ¬ ExcRecord.rank { kind := .int, mode := .any } < r.rank := by
    show ¬ 90 < r.rank
    omega
  simp [selectRecord, selectFrom, this]

/-- MEM without an access on an instruction that holds a record: at most the interrupt is added to it. -/
theorem memPass_alone_record (s : State) (x : Snapshot) (r : ExcRecord) (h : x.exc = [r]) (hr : r.rank ≤ 90) :
    ∃ y b, memPass (atMem s x) = .next (atMem { s with intShadow := b } y) ∧ y.pc = x.pc ∧
      selectRecord y.exc = some r := by
  rcases sampleInterrupt_atMem s x with e | e
  · refine ⟨x, if s.intShadow then false else s.intShadow, ?_, rfl, ?_⟩
    · unfold memPass memStep
      rw [e]
      cases hs : s.intShadow <;> simp [noAccess, atMem, hs]
    · rw [h]
      rfl
  · refine ⟨x.raise [{ kind := .int, mode := .any }], if s.intShadow then false else s.intShadow, ?_, rfl, ?_⟩
    · unfold memPass memStep
      rw [e]
      cases hs : s.intShadow <;> simp [noAccess, atMem, hs]
    · simp only [Snapshot.raise, h]
      exact selectRecord_int r hr

/-! ### The whole passage -/

/-- The stage works of an instruction with the given decoder outputs, coprocessor, computation, effect and MEM work. -/
def stages (d : DecodeOut) (n : Option (BitVec 2)) (compute : State → Snapshot → Snapshot)
    (effect : Snapshot → State → Out) (mem : State → Out) (t : State) : Out :=
  byStage t (fun t => decodeStep d (copCheck t n) t) (exStage compute effect) mem wbStage

/-- The passage from EX on. -/
theorem passAlone_stages (d : DecodeOut) (n : Option (BitVec 2)) (compute : State → Snapshot → Snapshot)
    (effect : Snapshot → State → Out) (mem : State → Out) (s : State) (p w : Word) :
    passAlone (stages d n compute effect mem) (issue s p w) =
      andThen (exStage compute effect (atEx s (idSnapshot p w d (copCheck s n)))) fun b =>
        andThen (mem { advance b with active := .memory, stall := false }) fun c =>
          if c.stall then .next c else wbStage { advance c with active := .writeback } := by
  obtain ⟨a, ha, hx⟩ := decodeStep_alone d (copCheck s n) s p w
  unfold passAlone
  have : stages d n compute effect mem { issue s p w with active := .decode } = .next a := ha
  rw [this, andThen_next, hx]
  rfl

/-- An instruction that passes its checks, computes, has an EX effect and accesses nothing commits. -/
theorem passAlone_commits {d : DecodeOut} {n : Option (BitVec 2)} {compute : State → Snapshot → Snapshot}
    {effect : Snapshot → State → Out} {s s' : State} {p w : Word} {x y : Snapshot}
    (hc : copCheck s n = [])
    (hx : compute (atEx s (idSnapshot p w d [])) (resolved (atEx s (idSnapshot p w d []))) = x) (he : x.exc = [])
    (hf : effect x (atEx s x) = .next (atEx s' y)) (hy : y.exc = [])
    (hi : y.exSideEffect = true ∨ noInterrupt s') :
    passAlone (stages d n compute effect memPass) (issue s p w) =
      .next (commit (atWb { s' with intShadow := false } y) y) := by
  rw [passAlone_stages, hc, exStage_alone _ _ _ _ (by rw [hx]; exact he), hx, hf, andThen_next, advance_atEx,
    memPass_alone _ _ hi, andThen_next]
  exact wbStage_alone _ _ hy

/-- An instruction with one record of its own takes it and has no effect. -/
theorem passAlone_traps {d : DecodeOut} {n : Option (BitVec 2)} {compute : State → Snapshot → Snapshot}
    {effect : Snapshot → State → Out} {s : State} {p w : Word} {x : Snapshot} {r : ExcRecord}
    (hx : compute (atEx s (idSnapshot p w d (copCheck s n))) (resolved (atEx s (idSnapshot p w d (copCheck s n)))) = x)
    (he : x.exc = [r]) (hp : x.pc = p) (hr : r.rank ≤ 90) :
    ∃ y b, passAlone (stages d n compute effect memPass) (issue s p w) =
      .next (takeException (atWb { s with intShadow := b } y) p r) := by
  obtain ⟨y, b, hm, hyp, hsel⟩ := memPass_alone_record s x r he hr
  refine ⟨y, b, ?_⟩
  rw [passAlone_stages, exStage_alone_record _ _ _ _ (by rw [hx, he]; simp), hx, andThen_next, advance_atEx, hm,
    andThen_next]
  have := wbStage_alone_record { s with intShadow := b } y r hsel
  rw [hyp, hp] at this
  exact this

/-! ### What commit and exception entry leave -/

theorem readGpr_commit (s : State) (x : Snapshot) (q : Reg) :
    readGpr (commit s x) q = match x.dest.destReg with
      | some r => if q = r then (if r = 0 then 0#32 else x.result) else readGpr s q
      | none => readGpr s q := by
  unfold commit
  cases x.dest.destReg with
  | none => rfl
  | some r =>
    show readGpr (haltCheck (writeGpr s r x.result) x.pc) q = _
    have : readGpr (haltCheck (writeGpr s r x.result) x.pc) q = readGpr (writeGpr s r x.result) q := rfl
    rw [this]
    by_cases h : q = r
    · subst h; simp [readGpr_writeGpr_same]
    · simp [readGpr_writeGpr_other _ _ _ _ h, h]

/-- Exception entry from the state WB stands in is the whole exception. -/
theorem tookException_takeException (s : State) (y : Snapshot) (b : Bool) (p : Word) (r : ExcRecord) :
    tookException s (takeException (atWb { s with intShadow := b } y) p r) p r := by
  simp [tookException, sameGpr, sameHiLo, sameMemory, sameCaches, sameBus, atWb, State.bootVectors]
  intro q; rfl

end Sys2Proof.Machine
end

