-- ==== Sys2Proof/Laws/Access.lean ====
section
/-! SUPPORT. What the shared operations of a memory access answer: translation, the cache's readiness, the Mapper, the
read and the write of the MEM step; and the passage of an instruction alone that makes one. -/

namespace Sys2Proof.Machine

/-! ### Translation -/

@[simp] theorem Snapshot.raise_nil (x : Snapshot) : x.raise [] = x := by
  simp [Snapshot.raise]

@[simp] theorem raiseMem_nil (s : State) : s.raiseMem [] = s := by
  simp [State.raiseMem, State.setMem]

/-- Translation reads the parameters and SR alone. -/
theorem addressTranslate_congr {s t : State} (hc : t.cfg = s.cfg) (hs : t.sr = s.sr) (va bad : Word) (mode : AccessMode) :
    addressTranslate t va bad mode = addressTranslate s va bad mode := by
  simp [addressTranslate, segmentMap, userCheck, mappedCheck, State.userMode, hc, hs]

theorem segmentMap_pa (s : State) (va bad bad' : Word) (mode : AccessMode) :
    (segmentMap s va bad mode).pa = (segmentMap s va bad' mode).pa ∧
      (segmentMap s va bad mode).cacheable = (segmentMap s va bad' mode).cacheable ∧
      ((segmentMap s va bad mode).recs = [] ↔ (segmentMap s va bad' mode).recs = []) := by
  unfold segmentMap
  split
  · exact ⟨rfl, rfl, Iff.rfl⟩
  · split
    · exact ⟨rfl, rfl, Iff.rfl⟩
    · split <;> simp

/-- An access that passes its checks goes to the same place whatever address its records would have carried. -/
theorem reaches_bad {s : State} {va pa : Word} {mode : AccessMode} {c : Bool} (h : reaches s va mode pa c) (bad : Word) :
    addressTranslate s va bad mode = { pa := some pa, cacheable := c, recs := [] } := by
  have hs := segmentMap_pa s va bad va mode
  simp only [reaches, addressTranslate, AtResult.mk.injEq, List.append_eq_nil_iff] at h ⊢
  obtain ⟨h1, h2, ⟨h3, h4⟩, h5⟩ := h
  refine ⟨hs.1.trans h1, by rw [hs.2.1, h2], ⟨?_, hs.2.2.2 h4⟩, by rw [hs.1]; exact h5⟩
  unfold userCheck at h3 ⊢
  split at h3 <;> simp_all

theorem reaches_congr {s t : State} (hc : t.cfg = s.cfg) (hs : t.sr = s.sr) {va pa : Word} {mode : AccessMode} {c : Bool}
    (h : reaches s va mode pa c) : reaches t va mode pa c :=
  (addressTranslate_congr hc hs va va mode).trans h

/-- The Mapper has no error for an aligned address. -/
theorem mapperError_aligned {pa : Word} {w : Width} (h : aligned pa w = true) (mode : AccessMode) (bad : Word) :
    mapperError pa w mode bad = [] := by
  simp [mapperError, h]

/-- For a misaligned one it has the address error (R110). -/
theorem mapperError_misaligned {pa : Word} {w : Width} (h : aligned pa w = false) (mode : AccessMode) (bad : Word) :
    mapperError pa w mode bad = [{ kind := .addrErr, mode := mode, badVAddr := bad }] := by
  simp [mapperError, h]

theorem alignCheck_aligned {va : Word} {w : Width} (h : aligned va w = true) (mode : AccessMode) :
    alignCheck va w mode = [] := by
  simp [alignCheck, h]

/-! ### Lanes and draws -/

@[simp] theorem drew_zero (s : State) : s.drew 0 = s := rfl

@[simp] theorem aligned_byte (pa : Word) : aligned pa .byte = true := rfl

theorem laneOrDraw_aligned {s : State} {w : Width} {pa : Word} (h : aligned pa w = true) (word : Word) :
    laneOrDraw s w pa word = laneRead s.cfg.endian w pa word := by
  simp [laneOrDraw, h]

theorem mergeOrDraw_aligned {s : State} {w : Width} {pa : Word} (h : aligned pa w = true) (word v : Word) :
    mergeOrDraw s w pa word v = laneWrite s.cfg.endian w pa word v := by
  simp [mergeOrDraw, h]

theorem laneDraws_aligned {w : Width} {pa : Word} (h : aligned pa w = true) : laneDraws w pa = 0 := by
  simp [laneDraws, h]

/-! ### The cache's readiness -/

theorem lookup_congr {s t : State} (c : CacheId) (hg : t.cfg = s.cfg) (hk : (t.cache c).lines = (s.cache c).lines)
    (pa : Word) : lookup t c pa = lookup s c pa := by
  have : ∀ (g : Geometry) (w n : Nat), lookupFrom (t.cache c) g pa w n = lookupFrom (s.cache c) g pa w n := by
    intro g w n
    induction n generalizing w with
    | zero => rfl
    | succ n ih => simp [lookupFrom, Cache.line, hk, ih]
  unfold lookup
  rw [hg, this]

/-- An IDLE cache that holds the line is ready, and stays as it is. -/
theorem cacheReady_hit {s : State} {c : CacheId} {pa : Word} {way : Nat} (hi : (s.cache c).ctrl = .idle)
    (hl : lookup s c pa = some way) (mode : AccessMode) : cacheReady s c pa mode = (true, s) := by
  simp [cacheReady, hi, hl]

/-- A cache that is not IDLE is not ready, and stays as it is. -/
theorem cacheReady_busy {s : State} {c : CacheId} (hi : (s.cache c).ctrl ≠ .idle) (pa : Word) (mode : AccessMode) :
    cacheReady s c pa mode = (false, s) := by
  simp [cacheReady, hi]

/-- An IDLE cache without the line starts the miss. -/
theorem cacheReady_miss {s : State} {c : CacheId} {pa : Word} (hi : (s.cache c).ctrl = .idle)
    (hl : lookup s c pa = none) (mode : AccessMode) : cacheReady s c pa mode = (false, startMiss s c pa mode) := by
  simp [cacheReady, hi, hl]

/-- A cache that is ready is IDLE and holds the line; nothing has changed. -/
theorem cacheReady_true {s t : State} {c : CacheId} {pa : Word} {mode : AccessMode} (h : cacheReady s c pa mode = (true, t)) :
    t = s ∧ (s.cache c).ctrl = .idle ∧ ∃ way, lookup s c pa = some way := by
  unfold cacheReady at h
  split at h
  · simp at h
  · split at h
    · rename_i hi _ _ hl
      simp only [Prod.mk.injEq, true_and] at h
      exact ⟨h.symm, not_not.mp hi, _, hl⟩
    · simp at h

/-- A miss changes its cache alone, and there the controller, the transaction and the miss counter. -/
theorem startMiss_eq (s : State) (c : CacheId) (pa : Word) (mode : AccessMode) :
    ∃ st tx, startMiss s c pa mode =
      s.setCache c { s.cache c with ctrl := st, txn := some tx, misses := (s.cache c).misses + 1 } := by
  simp only [startMiss]
  split
  · exact ⟨_, _, rfl⟩
  · exact ⟨_, _, rfl⟩

/-- A miss leaves its cache as R142 and R144 say. -/
theorem startMiss_missStarted (s : State) (c : CacheId) (pa : Word) (mode : AccessMode) :
    missStarted s c pa mode ((startMiss s c pa mode).cache c) := by
  have hc : ∀ k : Cache, (s.setCache c k).cache c = k := by intro k; cases c <;> rfl
  have hi : s.cacheIsolated c = true ↔ c = .dcache ∧ s.sr.getLsbD 16 = true := by
    cases c <;> simp [State.cacheIsolated, State.isolated]
  simp only [startMiss, missStarted]
  split
  · rename_i h
    simp only [Bool.and_eq_true, bne_iff_ne, ne_eq, Bool.not_eq_true', Bool.eq_false_iff, hi] at h
    obtain ⟨⟨⟨h1, h2⟩, h3⟩, h4⟩ := h
    rw [hc]
    exact ⟨rfl, rfl, rfl, fun _ => ⟨rfl, rfl⟩, fun n => absurd ⟨h1, h2, h3, h4⟩ n⟩
  · rename_i h
    rw [hc]
    refine ⟨rfl, rfl, rfl, fun ⟨h1, h2, h3, h4⟩ => absurd ?_ h, fun _ => ⟨rfl, rfl⟩⟩
    simp only [Bool.and_eq_true, bne_iff_ne, ne_eq, Bool.not_eq_true', Bool.eq_false_iff, hi]
    exact ⟨⟨⟨h1, h2⟩, h3⟩, h4⟩

/-- A cache that is not ready has changed itself alone, and no line. -/
theorem cacheReady_false {s t : State} {c : CacheId} {pa : Word} {mode : AccessMode} (h : cacheReady s c pa mode = (false, t)) :
    ∃ k, t = s.setCache c k ∧ k.lines = (s.cache c).lines := by
  unfold cacheReady at h
  split at h
  · simp only [Prod.mk.injEq, true_and] at h
    exact ⟨s.cache c, by subst h; cases c <;> rfl, rfl⟩
  · split at h
    · simp at h
    · simp only [Prod.mk.injEq, true_and] at h
      obtain ⟨st, tx, e⟩ := startMiss_eq s c pa mode
      exact ⟨_, h.symm.trans e, rfl⟩

/-! ### The Mapper -/

theorem mapperFetch_memory {s : State} {pa : Word} (h : isDevice s.cfg pa = false) (w : Width) (c : Client) :
    mapperFetch s pa w c = (memoryValue s pa w, s) := by
  simp [mapperFetch, h, memoryValue]

theorem mapperFetch_device {s : State} {pa : Word} (h : isDevice s.cfg pa = true) (w : Width) (c : Client) :
    mapperFetch s pa w c = (w.truncate (Config.freeWord s.draws),
      { s.drew 1 with devLog := s.devLog ++ [{ client := c, addr := pa, bytes := w.bytes, data := none }] }) := by
  simp [mapperFetch, h, State.freeWord]

theorem mapperStore_memory {s : State} {pa : Word} (h : isDevice s.cfg pa = false) (w : Width) (v : Word) (c : Client) :
    mapperStore s pa w v c = { s with mem := s.mem.writeBytes pa (bytesOfValue s.cfg.endian w.bytes v) } := by
  simp [mapperStore, h]

theorem mapperStore_device {s : State} {pa : Word} (h : isDevice s.cfg pa = true) (w : Width) (v : Word) (c : Client) :
    mapperStore s pa w v c =
      { s with devLog := s.devLog ++ [{ client := c, addr := pa, bytes := w.bytes, data := some (w.truncate v) }] } := by
  simp [mapperStore, h]

/-! ### The read and the write of the MEM step -/

/-- A read whose checks pass is the read at the place they lead to. -/
theorem memRead_reaches {s : State} {va pa bad : Word} {w : Width} {c : Bool} (he : s.pipe.mem.exc = [])
    (ha : aligned va w = true) (hr : reaches s va .load pa c) : memRead s va bad w = readAt s pa c w bad := by
  simp [memRead, reaches_bad hr bad, alignCheck_aligned ha, he]

/-- An uncached read at an aligned address is one Mapper call. -/
theorem readAt_uncached {s : State} {pa bad : Word} {w : Width} (h : aligned pa w = true) :
    readAt s pa false w bad = .done (mapperFetch s pa w .dcache).1 (mapperFetch s pa w .dcache).2 := by
  simp [readAt, mapperError_aligned h]

/-- At a misaligned one it ends in the Mapper's address error (R110). -/
theorem readAt_misaligned {s : State} {pa bad : Word} {w : Width} (h : aligned pa w = false) :
    readAt s pa false w bad = .faulted (s.raiseMem [{ kind := .addrErr, mode := .load, badVAddr := bad }]) := by
  simp [readAt, mapperError_misaligned h]

/-- A read with a record, its own or from before, is not performed. -/
theorem memRead_faulted {s : State} {va bad : Word} {w : Width}
    (h : s.pipe.mem.exc ++ (alignCheck va w .load ++ (addressTranslate s va bad .load).recs) ≠ []) :
    memRead s va bad w = .faulted (s.raiseMem (alignCheck va w .load ++ (addressTranslate s va bad .load).recs)) := by
  unfold memRead
  rw [if_pos]
  simpa [State.raiseMem, State.setMem, Snapshot.raise] using h

/-- A write whose checks pass is the write at the places they lead to. -/
theorem memWrite_reaches {s : State} {bad : Word} {items : List StoreItem} (he : s.pipe.mem.exc = [])
    (h : storeRecs s bad items = []) :
    memWrite s bad items = writeAt s bad (items.map (storeTarget s bad)) := by
  unfold memWrite
  rw [h, raiseMem_nil]
  exact if_neg (by simp [he])

/-- Stores for which the Mapper has no error wait for their lines and are then performed. -/
theorem writeAt_ok {s : State} {bad : Word} {ts : List StoreTarget} (h : storeErrors bad ts = []) :
    writeAt s bad ts = if (storesReady s ts).1 then .done 0#32 (storeAll (storesReady s ts).2 ts)
      else .stall (storesReady s ts).2 := by
  unfold writeAt
  rw [h]
  dsimp only
  split <;> simp_all

/-- Cached stores, and uncached ones at aligned addresses, meet no error of the Mapper. -/
theorem storeErrors_eq_nil {bad : Word} {ts : List StoreTarget}
    (h : ∀ t ∈ ts, t.cacheable = true ∨ aligned t.pa t.width = true) : storeErrors bad ts = [] := by
  simp only [storeErrors, List.flatMap_eq_nil_iff]
  intro t ht
  rcases h t ht with h | h
  · simp [h]
  · simp [mapperError_aligned h]

/-- A write with a record, its own or from before, is not performed. -/
theorem memWrite_faulted {s : State} {bad : Word} {items : List StoreItem}
    (h : s.pipe.mem.exc ++ storeRecs s bad items ≠ []) :
    memWrite s bad items = .faulted (s.raiseMem (storeRecs s bad items)) := by
  unfold memWrite
  rw [if_pos]
  simpa [State.raiseMem, State.setMem, Snapshot.raise] using h

/-! ### The passage -/

/-- The snapshot a load, store or CACHE enters MEM with. -/
def accessSnapshot (s : State) (p w : Word) (d : DecodeOut) (recs : List ExcRecord) : Snapshot :=
  addressOf s (valued s (idSnapshot p w d recs))

theorem resolved_atEx (s : State) (x : Snapshot) (hA : ∀ st r, x.opA ≠ .forwarded st r) (hB : ∀ st r, x.opB ≠ .forwarded st r) :
    resolved (atEx s x) = valued s x := by
  have h : ∀ o, (∀ st r, o ≠ OperandSource.forwarded st r) → operandValue (atEx s x) o = operandValue s o := by
    intro o ho
    cases o with
    | forwarded st r => exact absurd rfl (ho st r)
    | _ => rfl
  simp only [resolved, valued]
  rw [← h x.opA hA, ← h x.opB hB]
  rfl

theorem resolved_id (s : State) (p w : Word) (d : DecodeOut) (recs : List ExcRecord) :
    resolved (atEx s (idSnapshot p w d recs)) = valued s (idSnapshot p w d recs) := by
  apply resolved_atEx
  · intro st r h
    obtain ⟨src1, src2, dest, us, se, mr, mw, rsv, imm, shamt⟩ := d
    cases us <;> cases src1 <;> simp [idSnapshot, Selector.alone] at h
  · intro st r h
    obtain ⟨src1, src2, dest, us, se, mr, mw, rsv, imm, shamt⟩ := d
    cases src2 <;> simp [idSnapshot] at h

/-- EX of a load, store or CACHE alone, its checks in ID passed. -/
theorem exStage_access (s : State) (p w : Word) (d : DecodeOut) (recs : List ExcRecord) :
    exStage addressOf noEffect (atEx s (idSnapshot p w d recs)) = .next (atEx s (accessSnapshot s p w d recs)) := by
  have e : addressOf (atEx s (idSnapshot p w d recs)) (resolved (atEx s (idSnapshot p w d recs))) =
      accessSnapshot s p w d recs := by
    rw [resolved_id]; rfl
  unfold exStage
  simp only [e]
  split <;> rfl

/-- What MEM answers when its work is done, no interrupt sampled. -/
theorem memStep_done {work : State → MemWork} {s t : State} {x : Snapshot} (hn : noInterrupt s)
    (hw : work (atMem s x) = .done t) (ht : t.intShadow = s.intShadow) :
    memStep false work (atMem s x) = .next { t with stall := false, intShadow := false } := by
  unfold memStep
  rw [sampleInterrupt_none (atMem s x) (.inr hn), hw]
  have : (atMem s x).intShadow = s.intShadow := rfl
  cases hs : s.intShadow <;> simp [this, ht, hs]

theorem memStep_stall {work : State → MemWork} {s t : State} {x : Snapshot} (hn : noInterrupt s)
    (hw : work (atMem s x) = .stall t) : memStep false work (atMem s x) = .next { t with stall := true } := by
  unfold memStep
  rw [sampleInterrupt_none (atMem s x) (.inr hn), hw]

/-- A load, store or CACHE alone whose MEM work ends with nothing recorded commits. -/
theorem passAlone_access {d : DecodeOut} {n : Option (BitVec 2)} {work : State → MemWork} {s s' : State} {p w : Word}
    {y : Snapshot} (hc : copCheck s n = []) (hn : noInterrupt s)
    (hw : work (atMem s (accessSnapshot s p w d [])) = .done (atMem s' y)) (hy : y.exc = [])
    (hs : s'.intShadow = s.intShadow) :
    passAlone (stages d n addressOf noEffect (memStep false work)) (issue s p w) =
      .next (commit (atWb { s' with intShadow := false } y) y) := by
  rw [passAlone_stages, hc, exStage_access, andThen_next, advance_atEx, memStep_done hn hw hs, andThen_next]
  exact wbStage_alone { s' with intShadow := false } y hy

/-- A load, store or CACHE alone whose MEM work stalls. -/
theorem passAlone_stall {d : DecodeOut} {n : Option (BitVec 2)} {work : State → MemWork} {s t : State} {p w : Word}
    (hc : copCheck s n = []) (hn : noInterrupt s) (hw : work (atMem s (accessSnapshot s p w d [])) = .stall t) :
    passAlone (stages d n addressOf noEffect (memStep false work)) (issue s p w) = .next { t with stall := true } := by
  rw [passAlone_stages, hc, exStage_access, andThen_next, advance_atEx, memStep_stall hn hw, andThen_next]
  rfl

/-- A stalled instruction that has changed no more than the caches stalls in MEM as `stallsInMem` says. -/
theorem stallsInMem_atMem {i : Instr} {s : State} {p ea : Word} {y : Snapshot} {issued : Bool} (ki kd : Cache)
    (h : y.pc = p ∧ y.instr = encode i ∧ y.bubble = false ∧ y.ea = ea ∧ y.dest = (decodeOut i).dest ∧ y.exc = [] ∧
      y.exSideEffect = false ∧ y.memIssued = issued) :
    stallsInMem i s { atMem { s with icache := ki, dcache := kd } y with stall := true } p ea issued := by
  obtain ⟨h1, h2, h3, h4, h5, h6, h7, h8⟩ := h
  exact ⟨rfl, fun _ => rfl, ⟨rfl, rfl⟩, ⟨rfl, rfl, rfl, rfl, rfl⟩, ⟨fun _ => rfl, rfl⟩, ⟨rfl, rfl, rfl⟩,
    ⟨rfl, rfl, rfl, rfl, rfl⟩, rfl, rfl, rfl, h1, h2, h3, h4, h5, h6, h7, h8⟩

/-- A load, store or CACHE alone that ends MEM with records takes the one selected, whatever stood before it. -/
theorem passAlone_access_traps {d : DecodeOut} {n : Option (BitVec 2)} {work : State → MemWork} {s : State} {p w : Word}
    {r : ExcRecord}
    (hw : ∀ pre, pre = [] ∨ pre = [{ kind := .int, mode := .any }] →
      ∃ y, work (atMem s { accessSnapshot s p w d (copCheck s n) with exc := copCheck s n ++ pre }) = .done (atMem s y) ∧
        y.pc = p ∧ selectRecord y.exc = some r) :
    ∃ y b, passAlone (stages d n addressOf noEffect (memStep false work)) (issue s p w) =
      .next (takeException (atWb { s with intShadow := b } y) p r) := by
  rw [passAlone_stages, exStage_access, andThen_next, advance_atEx]
  have key : ∃ y b, memStep false work (atMem s (accessSnapshot s p w d (copCheck s n))) =
      .next (atMem { s with intShadow := b } y) ∧ y.pc = p ∧ selectRecord y.exc = some r := by
    unfold memStep
    rcases sampleInterrupt_atMem s (accessSnapshot s p w d (copCheck s n)) with e | e
    · obtain ⟨y, h1, h2, h3⟩ := hw [] (.inl rfl)
      refine ⟨y, if s.intShadow then false else s.intShadow, ?_, h2, h3⟩
      have e2 : { accessSnapshot s p w d (copCheck s n) with exc := copCheck s n ++ [] } =
          accessSnapshot s p w d (copCheck s n) := by
        simp [accessSnapshot, addressOf, valued, idSnapshot]
      rw [e2] at h1
      rw [e, h1]
      cases hs : s.intShadow <;> simp [atMem, hs]
    · obtain ⟨y, h1, h2, h3⟩ := hw _ (.inr rfl)
      refine ⟨y, if s.intShadow then false else s.intShadow, ?_, h2, h3⟩
      have e2 : { accessSnapshot s p w d (copCheck s n) with exc := copCheck s n ++ [{ kind := .int, mode := .any }] } =
          (accessSnapshot s p w d (copCheck s n)).raise [{ kind := .int, mode := .any }] := by
        simp [accessSnapshot, addressOf, valued, idSnapshot, Snapshot.raise]
      rw [e2] at h1
      rw [e, h1]
      cases hs : s.intShadow <;> simp [atMem, hs]
  obtain ⟨y, b, h1, h2, h3⟩ := key
  refine ⟨y, b, ?_⟩
  rw [h1, andThen_next]
  have := wbStage_alone_record { s with intShadow := b } y r h3
  rw [h2] at this
  exact this

end Sys2Proof.Machine
end

