-- ==== Sys2Proof/Laws/Exec.lean ====
section
/-! SUPPORT. What `exec` does in each stage, said once over all instructions: the ID and WB works are shared, the EX and
MEM works keep the frames below. -/

namespace Sys2Proof.Machine

set_option Elab.async false

/-! ### The stage -/

theorem byStage_decode {s : State} (h : s.active = .decode) (dec ex mem wb : State → Out) : byStage s dec ex mem wb = dec s := by
  simp [byStage, h]

theorem byStage_execute {s : State} (h : s.active = .execute) (dec ex mem wb : State → Out) : byStage s dec ex mem wb = ex s := by
  simp [byStage, h]

theorem byStage_memory {s : State} (h : s.active = .memory) (dec ex mem wb : State → Out) : byStage s dec ex mem wb = mem s := by
  simp [byStage, h]

theorem byStage_writeback {s : State} (h : s.active = .writeback) (dec ex mem wb : State → Out) :
    byStage s dec ex mem wb = wb s := by
  simp [byStage, h]

/-- In ID every instruction does the shared ID work. -/
theorem exec_decode (i : Instr) {s : State} (h : s.active = .decode) : exec i s = idStage i s := by
  cases i <;> exact byStage_decode h _ _ _ _

/-- In WB every instruction does the shared WB work. -/
theorem exec_writeback (i : Instr) {s : State} (h : s.active = .writeback) : exec i s = wbStage s := by
  cases i <;> exact byStage_writeback h _ _ _ _

/-- Nothing is selected exactly from an empty buffer. -/
theorem selectRecord_eq_none {recs : List ExcRecord} : selectRecord recs = none ↔ recs = [] := by
  cases recs <;> simp [selectRecord]

/-- WB takes the selected record, or commits an instruction that holds none. -/
theorem wbStage_cases (s : State) :
    (∃ r, selectRecord s.pipe.wb.exc = some r ∧ wbStage s = .next (takeException s s.pipe.wb.pc r)) ∨
      (s.pipe.wb.exc = [] ∧ wbStage s = .next (commit s s.pipe.wb)) := by
  unfold wbStage
  split
  · rename_i r h
    exact .inl ⟨r, h, rfl⟩
  · rename_i h
    exact .inr ⟨selectRecord_eq_none.mp h, rfl⟩

/-! ### EX -/

/-- What a computation of EX leaves of its snapshot: it adds records and keeps the rest that later stages decide by. -/
structure KeepsSlot (x y : Snapshot) : Prop where
  pc           : y.pc = x.pc
  instr        : y.instr = x.instr
  bubble       : y.bubble = x.bubble
  dest         : y.dest = x.dest
  exSideEffect : y.exSideEffect = x.exSideEffect
  memIssued    : y.memIssued = x.memIssued
  exc          : x.exc <+: y.exc

/-- What an instruction's work in EX never changes. -/
structure ExFrame (s t : State) : Prop where
  gpr           : t.gpr = s.gpr
  epc           : t.epc = s.epc
  badVAddr      : t.badVAddr = s.badVAddr
  icache        : t.icache = s.icache
  dcache        : t.dcache = s.dcache
  bus           : t.bus = s.bus
  requests      : t.requests = s.requests
  mem           : t.mem = s.mem
  devLog        : t.devLog = s.devLog
  env           : t.env = s.env
  cfg           : t.cfg = s.cfg
  cycle         : t.cycle = s.cycle
  loadUseEvents : t.loadUseEvents = s.loadUseEvents
  intShadow     : t.intShadow = s.intShadow
  active        : t.active = s.active
  stall         : t.stall = s.stall
  halted        : t.halted = s.halted
  slotMem       : t.pipe.mem = s.pipe.mem
  slotWb        : t.pipe.wb = s.pipe.wb
  slotEx        : t.pipe.ex.pc = s.pipe.ex.pc ∧ t.pipe.ex.instr = s.pipe.ex.instr ∧ t.pipe.ex.bubble = s.pipe.ex.bubble ∧
    t.pipe.ex.dest = s.pipe.ex.dest ∧ t.pipe.ex.memIssued = s.pipe.ex.memIssued ∧ s.pipe.ex.exc <+: t.pipe.ex.exc
  younger       : (t.pc = s.pc ∧ t.pipe.dec = s.pipe.dec ∧ t.pipe.fetch = s.pipe.fetch) ∨
    (t.pipe.dec = bubbleSnapshot ∧ t.pipe.fetch = bubbleSnapshot)

/-- EX under the guard is the effect on the computed snapshot; otherwise only the snapshot changes. -/
theorem exStage_cases (compute : State → Snapshot → Snapshot) (effect : Snapshot → State → Out) (s : State) :
    (exGuard (s.setEx (compute s (resolved s))) = true ∧
        exStage compute effect s = effect (compute s (resolved s)) (s.setEx (compute s (resolved s)))) ∨
      (exGuard (s.setEx (compute s (resolved s))) = false ∧
        exStage compute effect s = .next (s.setEx (compute s (resolved s)))) := by
  unfold exStage
  cases h : exGuard (s.setEx (compute s (resolved s))) <;> simp [h]

/-- The frame of EX from the frame of the effect. -/
theorem exStage_frame {compute : State → Snapshot → Snapshot} {effect : Snapshot → State → Out} {s t : State}
    (hc : KeepsSlot (resolved s) (compute s (resolved s)))
    (he : ∀ u v, effect (compute s (resolved s)) u = .next v → u.pipe.ex = compute s (resolved s) → ExFrame u v)
    (h : exStage compute effect s = .next t) : ExFrame s t := by
  have base : ExFrame s (s.setEx (compute s (resolved s))) := by
    constructor <;> first | rfl | skip
    · exact ⟨hc.pc, hc.instr, hc.bubble, hc.dest, hc.memIssued, hc.exc⟩
    · exact .inl ⟨rfl, rfl, rfl⟩
  rcases exStage_cases compute effect s with ⟨-, e⟩ | ⟨-, e⟩
  · have f := he _ _ (e.symm.trans h) rfl
    have b := base.slotEx
    have g := f.slotEx
    constructor
    case slotEx =>
      exact ⟨g.1.trans b.1, g.2.1.trans b.2.1, g.2.2.1.trans b.2.2.1, g.2.2.2.1.trans b.2.2.2.1,
        g.2.2.2.2.1.trans b.2.2.2.2.1, b.2.2.2.2.2.trans g.2.2.2.2.2⟩
    case younger => exact f.younger
    all_goals first
      | exact f.gpr | exact f.epc | exact f.badVAddr | exact f.icache | exact f.dcache | exact f.bus | exact f.requests
      | exact f.mem | exact f.devLog | exact f.env | exact f.cfg | exact f.cycle | exact f.loadUseEvents | exact f.intShadow
      | exact f.active | exact f.stall | exact f.halted | exact f.slotMem | exact f.slotWb
  · cases e.symm.trans h
    exact base

theorem ExFrame.refl (s : State) : ExFrame s s := by
  constructor <;> first | rfl | skip
  · exact ⟨rfl, rfl, rfl, rfl, rfl, List.prefix_refl _⟩
  · exact .inl ⟨rfl, rfl, rfl⟩

theorem keeps_resolved (s : State) : KeepsSlot (resolved s) (resolved s) :=
  ⟨rfl, rfl, rfl, rfl, rfl, rfl, List.prefix_refl _⟩

theorem keeps_result (s : State) (v : Word) : KeepsSlot (resolved s) { resolved s with result := v } :=
  ⟨rfl, rfl, rfl, rfl, rfl, rfl, List.prefix_refl _⟩

theorem keeps_address (s : State) : KeepsSlot (resolved s) (addressOf s (resolved s)) :=
  ⟨rfl, rfl, rfl, rfl, rfl, rfl, List.prefix_refl _⟩

theorem keeps_raise (s : State) (x : Snapshot) (recs : List ExcRecord) (h : KeepsSlot (resolved s) x) :
    KeepsSlot (resolved s) (x.raise recs) :=
  ⟨h.pc, h.instr, h.bubble, h.dest, h.exSideEffect, h.memIssued, h.exc.trans (List.prefix_append _ _)⟩

theorem noEffect_frame {x : Snapshot} {u v : State} (h : noEffect x u = .next v) : ExFrame u v := by
  cases h
  exact .refl u

theorem refuse_frame {r : Refusal} {u v : State} (h : (.refused r : Out) = .next v) : ExFrame u v := by cases h

theorem writeHiLo_frame (hi lo : Word) (u : State) : ExFrame u (writeHiLo hi lo u) := by
  constructor <;> first | rfl | skip
  · exact ⟨rfl, rfl, rfl, rfl, rfl, List.prefix_refl _⟩
  · exact .inl ⟨rfl, rfl, rfl⟩

theorem drawHiLo_frame {u v : State} (h : drawHiLo u = .next v) : ExFrame u v := by
  cases h
  constructor <;> first | rfl | skip
  · exact ⟨rfl, rfl, rfl, rfl, rfl, List.prefix_refl _⟩
  · exact .inl ⟨rfl, rfl, rfl⟩

theorem transferIf_frame {taken : Snapshot → Bool} {target : Snapshot → Word} {x : Snapshot} {u v : State}
    (h : transferIf taken target x u = .next v) : ExFrame u v := by
  unfold transferIf at h
  split at h
  · cases h
    constructor <;> first | rfl | skip
    · exact ⟨rfl, rfl, rfl, rfl, rfl, List.prefix_refl _⟩
    · exact .inr ⟨rfl, rfl⟩
  · cases h
    exact .refl u

theorem mfc0Effect_frame {n : Nat} {x : Snapshot} {u v : State} (h : mfc0Effect n x u = .next v) (hx : u.pipe.ex = x) :
    ExFrame u v := by
  subst hx
  unfold mfc0Effect at h
  split at h <;> cases h
  all_goals
    constructor <;> first | rfl | skip
    · exact ⟨rfl, rfl, rfl, rfl, rfl, List.prefix_refl _⟩
    · exact .inl ⟨rfl, rfl, rfl⟩

theorem mtc0Effect_frame {n : Nat} {x : Snapshot} {u v : State} (h : mtc0Effect n x u = .next v) : ExFrame u v := by
  unfold mtc0Effect cp0Write at h
  split at h
  · rename_i t ht
    cases h
    split at ht
    · cases ht
      constructor <;> first | rfl | skip
      · exact ⟨rfl, rfl, rfl, rfl, rfl, List.prefix_refl _⟩
      · exact .inl ⟨rfl, rfl, rfl⟩
    · split at ht
      · cases ht
        constructor <;> first | rfl | skip
        · exact ⟨rfl, rfl, rfl, rfl, rfl, List.prefix_refl _⟩
        · exact .inl ⟨rfl, rfl, rfl⟩
      · split at ht <;> cases ht
  · cases h
    exact .refl u
  · cases h

theorem rfeEffect_frame {x : Snapshot} {u v : State} (h : rfeEffect x u = .next v) : ExFrame u v := by
  cases h
  constructor <;> first | rfl | skip
  · exact ⟨rfl, rfl, rfl, rfl, rfl, List.prefix_refl _⟩
  · exact .inl ⟨rfl, rfl, rfl⟩

/-- In EX no instruction changes more than HI, LO, SR, Cause, the draws, its own snapshot, the fetch register and the
two younger slots. -/
theorem exec_execute_frame (i : Instr) {s t : State} (ha : s.active = .execute) (h : exec i s = .next t) : ExFrame s t := by
  cases i <;> replace h := (byStage_execute ha _ _ _ _).symm.trans h <;> refine exStage_frame ?_ ?_ h
  all_goals first
    | exact keeps_resolved s
    | exact keeps_result s _
    | exact keeps_address s
    | exact keeps_raise s _ _ (keeps_result s _)
    | exact keeps_raise s _ _ (keeps_resolved s)
    | exact fun u v e _ => noEffect_frame e
    | exact fun u v e _ => refuse_frame e
    | exact fun u v e _ => transferIf_frame e
    | exact fun u v e hx => mfc0Effect_frame e hx
    | exact fun u v e _ => mtc0Effect_frame e
    | exact fun u v e _ => rfeEffect_frame e
    | exact fun u v e _ => by cases e; exact writeHiLo_frame _ _ u
    | skip
  · intro u v e _
    unfold divEffect at e
    split at e
    · exact drawHiLo_frame e
    · cases e; exact writeHiLo_frame _ _ u
  · intro u v e _
    unfold divuEffect at e
    split at e
    · exact drawHiLo_frame e
    · cases e; exact writeHiLo_frame _ _ u

end Sys2Proof.Machine
end

