-- ==== Sys2Proof/Laws/Cycle.lean ====
section
/-! SUPPORT. The cycle and the step taken apart: a property of states that every part of a cycle keeps is kept by a cycle
and by a step; what the bus and a cache's step answer. -/

namespace Sys2Proof.Machine

/-! ### The bus (spec/20_memory.md R170, R171) -/

/-- A granted acquire leaves the client as the holder and nothing else changed; a denied one changes nothing. -/
theorem acquireBus_cases (s : State) (c : Client) :
    ((acquireBus s c).1 = true ∧ (s.bus.holder = some c ∨ s.bus.holder = none) ∧
        (acquireBus s c).2 = { s with bus := { s.bus with holder := some c } }) ∨
      ((acquireBus s c).1 = false ∧ s.bus.holder ≠ some c ∧ (acquireBus s c).2 = s) := by
  unfold acquireBus
  split
  · rename_i h
    refine .inl ⟨rfl, .inl h, ?_⟩
    rw [← h]
  · split
    · rename_i h
      exact .inl ⟨rfl, .inr h.1, rfl⟩
    · rename_i h _
      exact .inr ⟨rfl, h, rfl⟩

/-- A release answers next exactly for the holder, and frees the token. -/
theorem releaseBus_next {s t : State} {c : Client} (h : releaseBus s c = .next t) :
    s.bus.holder = some c ∧
      t = { s with bus := { holder := none, lastReleaseCycle := some s.cycle, lastReleaser := some c } } := by
  unfold releaseBus at h
  split at h
  · rename_i e
    cases h
    exact ⟨e, rfl⟩
  · cases h

/-! ### The cache's step (spec/20_memory.md R147 to R150) -/

/-- An IDLE cache stands still. -/
theorem stepCache_idle {s : State} {c : CacheId} (h : (s.cache c).ctrl = .idle) : stepCache s c = .next s := by
  simp [stepCache, h]

/-- A transaction that has not entered tries to. -/
theorem stepCache_entry {s : State} {c : CacheId} {t : Txn} (h : (s.cache c).ctrl ≠ .idle) (ht : (s.cache c).txn = some t)
    (he : t.entered = false) : stepCache s c = .next (enterTxn s c t) := by
  simp [stepCache, h, ht, he]

/-- A transaction that has entered moves a word. -/
theorem stepCache_transfer {s : State} {c : CacheId} {t : Txn} (h : (s.cache c).ctrl ≠ .idle)
    (ht : (s.cache c).txn = some t) (he : t.entered = true) : stepCache s c = transferWord s c t := by
  simp [stepCache, h, ht, he]

/-- A poll the tape or the quiet environment answers. -/
theorem pollReady_quiet {s : State} (hp : s.env.polls = []) (hq : s.env.quiet = true) : pollReady s = (true, s) := by
  simp [pollReady, hp, hq]

/-- The ticking steps of one cache, taken apart at the first. -/
theorem stepsCache_succ (c : CacheId) (n : Nat) (s : State) :
    stepsCache c (n + 1) s = andThen (stepCache s c) fun t => stepsCache c n (tick t) := rfl

/-! ### The external masters (spec/20_memory.md R173) -/

/-- An external master's action changes the bus, the pending requests, memory, the devices' log, the polls and the draws
alone. -/
theorem masterAct_frame {s t : State} {a : MasterAction} (h : masterAct s a = .next t) :
    t = { s with bus := t.bus, requests := t.requests, mem := t.mem, devLog := t.devLog, draws := t.draws,
                 env := { s.env with polls := t.env.polls } } := by
  have holder {id : Nat} {u : State} (h : asHolder s id u = .next t) : t = u := by
    unfold asHolder at h
    split at h <;> cases h
    rfl
  cases a with
  | acquire id =>
    cases h
    rcases acquireBus_cases s (.external id) with ⟨-, -, e⟩ | ⟨-, -, e⟩ <;> rw [e]
  | release id =>
    obtain ⟨-, rfl⟩ := releaseBus_next h
    rfl
  | request id a mode =>
    rw [holder h, requestWord]
    split <;> rfl
  | ready id a mode =>
    rw [holder h, pollReady]
    split
    · rfl
    · split <;> rfl
  | fetchWord id a mode =>
    rw [holder h]
    split
    · unfold mapperFetch
      split <;> rfl
    · rfl
  | storeWord id a v =>
    rw [holder h]
    split
    · unfold mapperStore
      split <;> rfl
    · rfl

/-! ### What a cycle is made of -/

/-- A property of states that every part of a cycle keeps. -/
structure KeptByParts (P : State → Prop) : Prop where
  input     : ∀ s, P s → P (sampleInput s)
  mark      : ∀ s a b, P s → P { s with active := a, stall := b }
  exec      : ∀ i s t, P s → (s.active = .writeback ∧ s.pipe.wb.bubble = false ∨ s.active = .memory ∧ s.pipe.mem.bubble = false ∨
    s.active = .execute ∧ s.pipe.ex.bubble = false ∨ s.active = .decode ∧ s.pipe.dec.bubble = false) →
    exec i s = .next t → P t
  reserved  : ∀ s t, P s → (s.active = .writeback ∧ s.pipe.wb.bubble = false ∨ s.active = .memory ∧ s.pipe.mem.bubble = false ∨
    s.active = .execute ∧ s.pipe.ex.bubble = false ∨ s.active = .decode ∧ s.pipe.dec.bubble = false) →
    reservedWord s = .next t → P t
  hold      : ∀ s, P s → P (s.setWb bubbleSnapshot)
  move      : ∀ s, P s → P (advance s)
  fetch     : ∀ s, P s → P (ifPhase s)
  cache     : ∀ s t c, P s → stepCache s c = .next t → P t
  master    : ∀ s t a, P s → masterAct s a = .next t → P t
  clock     : ∀ s, P s → P (tick s)

/-- The work of a slot keeps it. -/
theorem KeptByParts.slot {P : State → Prop} (k : KeptByParts P) {x : Snapshot} {s t : State} (hs : P s)
    (ha : x.bubble = false → (s.active = .writeback ∧ s.pipe.wb.bubble = false ∨ s.active = .memory ∧ s.pipe.mem.bubble = false ∨
      s.active = .execute ∧ s.pipe.ex.bubble = false ∨ s.active = .decode ∧ s.pipe.dec.bubble = false))
    (h : runSlot x s = .next t) : P t := by
  unfold runSlot at h
  split at h
  · cases h
    exact hs
  · rename_i hb
    have hb : x.bubble = false := by simpa using hb
    split at h
    · exact k.exec _ s t hs (ha hb) h
    · exact k.reserved s t hs (ha hb) h

/-- PipelineCycle keeps it. -/
theorem KeptByParts.pipeline {P : State → Prop} (k : KeptByParts P) {s t : State} (hs : P s)
    (h : pipelineCycle s = .next t) : P t := by
  obtain ⟨u, hu, h⟩ := andThen_eq_next h
  have pu := k.slot (k.mark s .writeback s.stall hs) (fun hb => .inl ⟨rfl, hb⟩) hu
  obtain ⟨v, hv, h⟩ := andThen_eq_next h
  have pv := k.slot (k.mark u .memory false pu) (fun hb => .inr (.inl ⟨rfl, hb⟩)) hv
  unfold afterMem at h
  split at h
  · cases h
    exact k.hold v pv
  · obtain ⟨w, hw, h⟩ := andThen_eq_next h
    have pw := k.slot (k.mark v .execute v.stall pv) (fun hb => .inr (.inr (.inl ⟨rfl, hb⟩))) hw
    obtain ⟨x, hx, h⟩ := andThen_eq_next h
    have px := k.slot (k.mark w .decode w.stall pw) (fun hb => .inr (.inr (.inr ⟨rfl, hb⟩))) hx
    cases h
    exact k.fetch _ (k.move x px)

/-- The external masters keep it. -/
theorem KeptByParts.masters {P : State → Prop} (k : KeptByParts P) (as : List MasterAction) :
    ∀ {s t : State}, P s → runMasters s as = .next t → P t := by
  induction as with
  | nil =>
    intro s t hs h
    cases h
    exact hs
  | cons a as ih =>
    intro s t hs h
    obtain ⟨u, hu, h⟩ := andThen_eq_next h
    exact ih (k.master s u a hs hu) h

/-- A cycle keeps it. -/
theorem KeptByParts.cycle {P : State → Prop} (k : KeptByParts P) {s t : State} (hs : P s)
    (h : Machine.cycle s = .next t) : P t := by
  obtain ⟨u, hu, h⟩ := andThen_eq_next h
  obtain ⟨v, hv, h⟩ := andThen_eq_next h
  obtain ⟨w, hw, h⟩ := andThen_eq_next h
  obtain ⟨x, hx, h⟩ := andThen_eq_next h
  cases h
  have pu := k.pipeline (k.input s hs) hu
  exact k.clock x (k.masters _ (k.cache v w .dcache (k.cache u v .icache pu hv) hw) hx)

/-- What every cycle keeps, any number of cycles keeps. -/
theorem runCycles_keeps {P : State → Prop} (hc : ∀ s t, P s → cycle s = .next t → P t) (n : Nat) :
    ∀ {s t : State}, P s → runCycles n s = .next t → P t := by
  induction n with
  | zero =>
    intro s t hs h
    cases h
    exact hs
  | succ n ih =>
    intro s t hs h
    obtain ⟨u, hu, h⟩ := andThen_eq_next h
    split at h
    · exact ih (hc s u hs hu) h
    · cases h
      exact hc s _ hs hu

/-- What every cycle keeps, a step keeps. -/
theorem step_keeps {P : State → Prop} (hc : ∀ s t, P s → cycle s = .next t → P t) {s t : State} (hs : P s)
    (h : step s = .next t) : P t := by
  unfold step at h
  split at h
  · cases h
    exact hs
  · split at h
    · cases h
    · split at h
      · cases h
      · exact runCycles_keeps hc _ hs h

/-- What every part of a cycle keeps, a step keeps. -/
theorem KeptByParts.step {P : State → Prop} (k : KeptByParts P) {s t : State} (hs : P s) (h : Machine.step s = .next t) : P t :=
  step_keeps (fun _ _ => k.cycle) hs h

end Sys2Proof.Machine
end

