-- ==== Sys2Proof/Laws/MemStage.lean ====
section
/-! SUPPORT. What `exec` does in MEM, said once over all instructions and over the operations its work is made of. -/

namespace Sys2Proof.Machine

set_option Elab.async false

/-- What an instruction's work in MEM never changes. -/
structure MemFrame (s t : State) : Prop where
  gpr           : t.gpr = s.gpr
  hi            : t.hi = s.hi
  lo            : t.lo = s.lo
  sr            : t.sr = s.sr
  cause         : t.cause = s.cause
  epc           : t.epc = s.epc
  badVAddr      : t.badVAddr = s.badVAddr
  pc            : t.pc = s.pc
  bus           : t.bus = s.bus
  requests      : t.requests = s.requests
  env           : t.env = s.env
  cfg           : t.cfg = s.cfg
  cycle         : t.cycle = s.cycle
  loadUseEvents : t.loadUseEvents = s.loadUseEvents
  intShadow     : t.intShadow = s.intShadow
  active        : t.active = s.active
  halted        : t.halted = s.halted
  slotFetch     : t.pipe.fetch = s.pipe.fetch
  slotDec       : t.pipe.dec = s.pipe.dec
  slotEx        : t.pipe.ex = s.pipe.ex
  slotWb        : t.pipe.wb = s.pipe.wb
  slotMem       : t.pipe.mem.pc = s.pipe.mem.pc ∧ t.pipe.mem.instr = s.pipe.mem.instr ∧
    t.pipe.mem.bubble = s.pipe.mem.bubble ∧ t.pipe.mem.dest = s.pipe.mem.dest ∧
    t.pipe.mem.exSideEffect = s.pipe.mem.exSideEffect ∧ s.pipe.mem.exc <+: t.pipe.mem.exc

theorem MemFrame.refl (s : State) : MemFrame s s := by
  constructor <;> first | rfl | skip
  exact ⟨rfl, rfl, rfl, rfl, rfl, List.prefix_refl _⟩

theorem MemFrame.trans {s t u : State} (f : MemFrame s t) (g : MemFrame t u) : MemFrame s u where
  gpr := g.gpr.trans f.gpr
  hi := g.hi.trans f.hi
  lo := g.lo.trans f.lo
  sr := g.sr.trans f.sr
  cause := g.cause.trans f.cause
  epc := g.epc.trans f.epc
  badVAddr := g.badVAddr.trans f.badVAddr
  pc := g.pc.trans f.pc
  bus := g.bus.trans f.bus
  requests := g.requests.trans f.requests
  env := g.env.trans f.env
  cfg := g.cfg.trans f.cfg
  cycle := g.cycle.trans f.cycle
  loadUseEvents := g.loadUseEvents.trans f.loadUseEvents
  intShadow := g.intShadow.trans f.intShadow
  active := g.active.trans f.active
  halted := g.halted.trans f.halted
  slotFetch := g.slotFetch.trans f.slotFetch
  slotDec := g.slotDec.trans f.slotDec
  slotEx := g.slotEx.trans f.slotEx
  slotWb := g.slotWb.trans f.slotWb
  slotMem := by
    obtain ⟨a1, a2, a3, a4, a5, a6⟩ := f.slotMem
    obtain ⟨b1, b2, b3, b4, b5, b6⟩ := g.slotMem
    exact ⟨b1.trans a1, b2.trans a2, b3.trans a3, b4.trans a4, b5.trans a5, a6.trans b6⟩

theorem raiseMem_frame (s : State) (recs : List ExcRecord) : MemFrame s (s.raiseMem recs) := by
  constructor <;> first | rfl | skip
  exact ⟨rfl, rfl, rfl, rfl, rfl, List.prefix_append _ _⟩

theorem drew_frame (s : State) (n : Nat) : MemFrame s (s.drew n) := by
  constructor <;> first | rfl | exact ⟨rfl, rfl, rfl, rfl, rfl, List.prefix_refl _⟩

theorem setCache_frame (s : State) (c : CacheId) (k : Cache) : MemFrame s (s.setCache c k) := by
  cases c <;> (constructor <;> first | rfl | exact ⟨rfl, rfl, rfl, rfl, rfl, List.prefix_refl _⟩)

theorem sampleInterrupt_frame (s : State) : MemFrame s (sampleInterrupt s) := by
  unfold sampleInterrupt
  split
  · exact raiseMem_frame s _
  · exact .refl s

theorem startMiss_frame (s : State) (c : CacheId) (pa : Word) (mode : AccessMode) : MemFrame s (startMiss s c pa mode) := by
  obtain ⟨st, tx, e⟩ := startMiss_eq s c pa mode
  rw [e]
  exact setCache_frame s c _

theorem cacheReady_frame (s : State) (c : CacheId) (pa : Word) (mode : AccessMode) : MemFrame s (cacheReady s c pa mode).2 := by
  unfold cacheReady
  split
  · exact .refl s
  · split
    · exact .refl s
    · exact startMiss_frame s c pa mode

theorem cacheRead_frame (s : State) (c : CacheId) (pa : Word) (w : Width) : MemFrame s (cacheRead s c pa w).2 := by
  simp only [cacheRead]
  split
  · exact (drew_frame s _).trans (setCache_frame _ c _)
  · exact .refl s

theorem cacheWrite_frame (s : State) (c : CacheId) (pa : Word) (w : Width) (v : Word) : MemFrame s (cacheWrite s c pa w v) := by
  simp only [cacheWrite]
  split
  · exact (drew_frame s _).trans (setCache_frame _ c _)
  · exact .refl s

theorem mapperFetch_frame (s : State) (pa : Word) (w : Width) (c : Client) : MemFrame s (mapperFetch s pa w c).2 := by
  unfold mapperFetch
  split <;> (constructor <;> first | rfl | exact ⟨rfl, rfl, rfl, rfl, rfl, List.prefix_refl _⟩)

theorem mapperStore_frame (s : State) (pa : Word) (w : Width) (v : Word) (c : Client) : MemFrame s (mapperStore s pa w v c) := by
  unfold mapperStore
  split <;> (constructor <;> first | rfl | exact ⟨rfl, rfl, rfl, rfl, rfl, List.prefix_refl _⟩)

theorem readAt_frame (s : State) (pa : Word) (c : Bool) (w : Width) (bad : Word) :
    (∃ t, readAt s pa c w bad = .faulted t ∧ MemFrame s t) ∨ (∃ t, readAt s pa c w bad = .stall t ∧ MemFrame s t) ∨
      ∃ v t, readAt s pa c w bad = .done v t ∧ MemFrame s t := by
  unfold readAt
  split
  · have f := cacheReady_frame s .dcache pa .load
    split
    · rename_i t e
      rw [e] at f
      exact .inr (.inl ⟨t, rfl, f⟩)
    · rename_i t e
      rw [e] at f
      exact .inr (.inr ⟨_, _, rfl, f.trans (cacheRead_frame t .dcache pa w)⟩)
  · split
    · exact .inr (.inr ⟨_, _, rfl, mapperFetch_frame s pa w .dcache⟩)
    · exact .inl ⟨_, rfl, raiseMem_frame s _⟩

/-- A read ends in a state of the frame, however it ends. -/
theorem memRead_frame (s : State) (va bad : Word) (w : Width) :
    (∃ t, memRead s va bad w = .faulted t ∧ MemFrame s t) ∨ (∃ t, memRead s va bad w = .stall t ∧ MemFrame s t) ∨
      ∃ v t, memRead s va bad w = .done v t ∧ MemFrame s t := by
  have r := raiseMem_frame s (alignCheck va w .load ++ (addressTranslate s va bad .load).recs)
  simp only [memRead]
  split
  · exact .inl ⟨_, rfl, r⟩
  · split
    · exact .inl ⟨_, rfl, r⟩
    · rename_i pa _
      rcases readAt_frame (s.raiseMem (alignCheck va w .load ++ (addressTranslate s va bad .load).recs)) pa
        (addressTranslate s va bad .load).cacheable w bad with ⟨t, e, f⟩ | ⟨t, e, f⟩ | ⟨v, t, e, f⟩
      · exact .inl ⟨t, e, r.trans f⟩
      · exact .inr (.inl ⟨t, e, r.trans f⟩)
      · exact .inr (.inr ⟨v, t, e, r.trans f⟩)

theorem storesReady_frame (ts : List StoreTarget) : ∀ s : State, MemFrame s (storesReady s ts).2 := by
  induction ts with
  | nil => exact fun s => .refl s
  | cons t ts ih =>
    intro s
    unfold storesReady
    split
    · have f := cacheReady_frame s .dcache t.pa .store
      split
      · rename_i u e
        rw [e] at f
        exact f
      · rename_i u e
        rw [e] at f
        exact f.trans (ih u)
    · exact ih s

theorem storeAll_frame (ts : List StoreTarget) : ∀ s : State, MemFrame s (storeAll s ts) := by
  induction ts with
  | nil => exact fun s => .refl s
  | cons t ts ih =>
    intro s
    refine MemFrame.trans ?_ (ih (storeAt s t))
    unfold storeAt
    split
    · exact cacheWrite_frame s .dcache _ _ _
    · exact mapperStore_frame s _ _ _ .dcache

theorem writeAt_frame (s : State) (bad : Word) (ts : List StoreTarget) :
    (∃ t, writeAt s bad ts = .faulted t ∧ MemFrame s t) ∨ (∃ t, writeAt s bad ts = .stall t ∧ MemFrame s t) ∨
      ∃ v t, writeAt s bad ts = .done v t ∧ MemFrame s t := by
  unfold writeAt
  split
  · have f := storesReady_frame ts s
    split
    · rename_i u e
      rw [e] at f
      exact .inr (.inl ⟨u, rfl, f⟩)
    · rename_i u e
      rw [e] at f
      exact .inr (.inr ⟨_, _, rfl, f.trans (storeAll_frame ts u)⟩)
  · exact .inl ⟨_, rfl, raiseMem_frame s _⟩

/-- A write ends in a state of the frame, however it ends. -/
theorem memWrite_frame (s : State) (bad : Word) (items : List StoreItem) :
    (∃ t, memWrite s bad items = .faulted t ∧ MemFrame s t) ∨ (∃ t, memWrite s bad items = .stall t ∧ MemFrame s t) ∨
      ∃ v t, memWrite s bad items = .done v t ∧ MemFrame s t := by
  have r := raiseMem_frame s (storeRecs s bad items)
  simp only [memWrite]
  split
  · exact .inl ⟨_, rfl, r⟩
  · rcases writeAt_frame (s.raiseMem (storeRecs s bad items)) bad (items.map (storeTarget s bad)) with
      ⟨t, e, f⟩ | ⟨t, e, f⟩ | ⟨v, t, e, f⟩
    · exact .inl ⟨t, e, r.trans f⟩
    · exact .inr (.inl ⟨t, e, r.trans f⟩)
    · exact .inr (.inr ⟨v, t, e, r.trans f⟩)

/-- The work of a MEM step ends in a state of the frame. -/
def WorkFrame (work : State → MemWork) : Prop := ∀ s t, work s = .stall t ∨ work s = .done t → MemFrame s t

theorem noAccess_frame : WorkFrame noAccess := by
  rintro s t (h | h) <;> cases h
  exact .refl s

theorem loadWork_frame {read : State → Access} {extend : State → Snapshot → Word → Word}
    (hr : ∀ s, (∃ t, read s = .faulted t ∧ MemFrame s t) ∨ (∃ t, read s = .stall t ∧ MemFrame s t) ∨
      ∃ v t, read s = .done v t ∧ MemFrame s t) : WorkFrame (loadWork read extend) := by
  intro s t h
  unfold loadWork at h
  rcases hr s with ⟨u, e, f⟩ | ⟨u, e, f⟩ | ⟨v, u, e, f⟩ <;> rw [e] at h <;> rcases h with h | h <;> cases h
  · exact f
  · exact f
  · exact f.trans (by
      constructor <;> first | rfl | skip
      exact ⟨rfl, rfl, rfl, rfl, rfl, List.prefix_refl _⟩)

theorem storeWork_frame {write : State → Access}
    (hw : ∀ s, (∃ t, write s = .faulted t ∧ MemFrame s t) ∨ (∃ t, write s = .stall t ∧ MemFrame s t) ∨
      ∃ v t, write s = .done v t ∧ MemFrame s t) : WorkFrame (storeWork write) := by
  intro s t h
  unfold storeWork at h
  rcases hw s with ⟨u, e, f⟩ | ⟨u, e, f⟩ | ⟨v, u, e, f⟩ <;> rw [e] at h <;> rcases h with h | h <;> cases h <;> exact f

theorem perform_frame (a : CacheAction) (s : State) (pa : Word) : MemFrame s (a.perform s pa) := by
  cases a <;> simp only [CacheAction.perform, opHitInvalidate, opHitWriteback, opHitWbInvalidate]
  · exact .refl s
  · split
    · exact setCache_frame s _ _
    · exact .refl s
  · split
    · split
      · exact setCache_frame s _ _
      · exact .refl s
    · exact .refl s
  · split
    · split <;> exact setCache_frame s _ _
    · exact .refl s

theorem cacheWork_frame (op : Nat) : WorkFrame (cacheWork op) := by
  intro s t h
  unfold cacheWork at h
  split at h
  · unfold cacheWait at h
    split at h
    · rcases h with h | h <;> cases h
      exact .refl s
    · split at h <;> rcases h with h | h <;> cases h <;> exact .refl s
  · have r := raiseMem_frame s (addressTranslateUnchecked s s.pipe.mem.ea .load).recs
    dsimp only at h
    split at h
    · rcases h with h | h <;> cases h
      exact r
    · split at h
      · rcases h with h | h <;> cases h
        exact r
      · rename_i pa _
        unfold cacheIssue at h
        split at h
        · rcases h with h | h <;> cases h
          exact r
        · split at h
          · rcases h with h | h <;> cases h
            exact r
          · split at h
            · rcases h with h | h <;> cases h
              exact r
            · have m : ∀ u : State, MemFrame u (u.setMem { u.pipe.mem with memIssued := true }) := by
                intro u
                constructor <;> first | rfl | skip
                exact ⟨rfl, rfl, rfl, rfl, rfl, List.prefix_refl _⟩
              have p := perform_frame (cacheAction op) (s.raiseMem (addressTranslateUnchecked s s.pipe.mem.ea .load).recs) pa
              dsimp only at h
              split at h <;> rcases h with h | h <;> cases h <;> exact (r.trans p).trans (m _)

/-- A MEM step changes, beside the frame of its work, only int_shadow and the mark of a stall. -/
theorem memStep_frame {isRfe : Bool} {work : State → MemWork} (hw : WorkFrame work) {s t : State}
    (h : memStep isRfe work s = .next t) : MemFrame s { t with intShadow := s.intShadow } := by
  unfold memStep at h
  have f := sampleInterrupt_frame s
  split at h
  · rename_i u e
    have g := f.trans (hw _ u (.inl e))
    cases h
    constructor <;> first
      | rfl
      | exact g.gpr | exact g.hi | exact g.lo | exact g.sr | exact g.cause | exact g.epc | exact g.badVAddr | exact g.pc
      | exact g.bus | exact g.requests | exact g.env | exact g.cfg | exact g.cycle | exact g.loadUseEvents
      | exact g.active | exact g.halted | exact g.slotFetch | exact g.slotDec | exact g.slotEx | exact g.slotWb
      | exact g.slotMem
  · rename_i u e
    have g := f.trans (hw _ u (.inr e))
    cases h
    constructor <;> first
      | rfl
      | exact g.gpr | exact g.hi | exact g.lo | exact g.sr | exact g.cause | exact g.epc | exact g.badVAddr | exact g.pc
      | exact g.bus | exact g.requests | exact g.env | exact g.cfg | exact g.cycle | exact g.loadUseEvents
      | exact g.active | exact g.halted | exact g.slotFetch | exact g.slotDec | exact g.slotEx | exact g.slotWb
      | exact g.slotMem

/-- In MEM no instruction changes a register, the status, the fetch register, the bus or another slot. -/
theorem exec_memory_frame (i : Instr) {s t : State} (ha : s.active = .memory) (h : exec i s = .next t) :
    MemFrame s { t with intShadow := s.intShadow } := by
  cases i <;> replace h := (byStage_memory ha _ _ _ _).symm.trans h <;> refine memStep_frame ?_ h
  all_goals first
    | with_reducible exact noAccess_frame
    | (with_reducible refine loadWork_frame ?_); exact fun u => memRead_frame u _ _ _
    | (with_reducible refine storeWork_frame ?_); exact fun u => memWrite_frame u _ _
    | with_reducible exact cacheWork_frame _

/-! ### The work of a slot, whatever word stands in it -/

/-- The WB work of a slot without records: a bubble does nothing, any other instruction commits. -/
theorem runSlot_writeback {s t : State} (ha : s.active = .writeback) (he : s.pipe.wb.exc = [])
    (h : runSlot s.pipe.wb s = .next t) :
    s.pipe.wb.bubble = true ∧ t = s ∨ s.pipe.wb.bubble = false ∧ t = commit s s.pipe.wb := by
  unfold runSlot at h
  split at h
  · rename_i hb
    cases h
    exact .inl ⟨hb, rfl⟩
  · rename_i hb
    refine .inr ⟨by simpa using hb, ?_⟩
    have hw : wbStage s = .next t := by
      split at h
      · rwa [exec_writeback _ ha] at h
      · rwa [reservedWord, byStage_writeback ha] at h
    rcases wbStage_cases s with ⟨r, hr, -⟩ | ⟨-, e⟩
    · rw [he] at hr
      cases hr
    · cases e.symm.trans hw
      rfl

/-- The MEM work of a slot keeps the frame of MEM, whatever word stands in it. -/
theorem runSlot_memory {x : Snapshot} {s t : State} (ha : s.active = .memory) (h : runSlot x s = .next t) :
    MemFrame s { t with intShadow := s.intShadow } := by
  unfold runSlot at h
  split at h
  · cases h
    exact .refl s
  · split at h
    · exact exec_memory_frame _ ha h
    · rw [reservedWord, byStage_memory ha] at h
      exact memStep_frame noAccess_frame h

end Sys2Proof.Machine
end

