-- ==== Sys2Proof/Laws/Memory.lean ====
section
/-! SUPPORT. Memory: a read after a write, the canonical form kept by every operation, and what is stored where. -/

namespace Sys2Proof.Machine

/-! ### Read after write -/

theorem Memory.read_insert (m : Memory) (a b : Nat) (v : Byte) :
    Memory.read (Memory.insert m a v) b = if b = a then v else Memory.read m b := by
  induction m with
  | nil => rfl
  | cons c m ih =>
    obtain ⟨c, w⟩ := c
    unfold Memory.insert
    split
    · rfl
    · split
      · rename_i h
        subst h
        by_cases hb : b = a <;> simp [Memory.read, hb]
      · rename_i h1 h2
        by_cases hb : b = c
        · subst hb
          simp [Memory.read, Ne.symm h2]
        · simp [Memory.read, hb, ih]

/-- Every listed address is above `a`. -/
theorem Memory.read_above {m : Memory} {a b : Nat} (h : Memory.wfAbove a m = true) (hb : b ≤ a) :
    Memory.read m b = Memory.unlisted := by
  induction m generalizing a with
  | nil => rfl
  | cons c m ih =>
    obtain ⟨c, w⟩ := c
    simp only [Memory.wfAbove, Bool.and_eq_true, decide_eq_true_eq] at h
    have : b ≠ c := by omega
    simp [Memory.read, this, ih h.2 (by omega)]

theorem Memory.wf_of_wfAbove {a : Nat} {m : Memory} (h : Memory.wfAbove a m = true) : Memory.wf m = true := by
  cases m with
  | nil => rfl
  | cons c m =>
    obtain ⟨c, w⟩ := c
    simp only [Memory.wfAbove, Bool.and_eq_true] at h
    simp [Memory.wf, h.1.2, h.2]

theorem Memory.wfAbove_lower {a b : Nat} {m : Memory} (h : Memory.wfAbove b m = true) (hab : a ≤ b) :
    Memory.wfAbove a m = true := by
  cases m with
  | nil => rfl
  | cons c m =>
    obtain ⟨c, w⟩ := c
    simp only [Memory.wfAbove, Bool.and_eq_true, decide_eq_true_eq] at h ⊢
    exact ⟨⟨by omega, h.1.2⟩, h.2⟩

theorem Memory.read_erase (m : Memory) (a b : Nat) :
    Memory.read (Memory.erase m a) b = if b = a then Memory.unlisted else Memory.read m b := by
  induction m with
  | nil => simp [Memory.erase, Memory.read]
  | cons c m ih =>
    obtain ⟨c, w⟩ := c
    unfold Memory.erase
    by_cases hc : a = c
    · subst hc
      rw [if_pos rfl, ih]
      by_cases hb : b = a <;> simp [Memory.read, hb]
    · by_cases hb : b = c
      · subst hb
        simp [Memory.read, hc, Ne.symm hc]
      · simp [Memory.read, hc, hb, ih]

/-- A read after a write: the written byte at its address, every other byte as before. -/
theorem Memory.read_write (m : Memory) (a b : Nat) (v : Byte) :
    Memory.read (Memory.write m a v) b = if b = a then v else Memory.read m b := by
  unfold Memory.write
  split
  · rename_i hv
    rw [Memory.read_erase, hv]
  · exact Memory.read_insert m a b v

/-! ### The canonical form -/

theorem Memory.wfAbove_insert {m : Memory} {c a : Nat} {v : Byte} (h : Memory.wfAbove c m = true) (hca : c < a)
    (hv : v ≠ Memory.unlisted) : Memory.wfAbove c (Memory.insert m a v) = true := by
  induction m generalizing c with
  | nil => simp [Memory.insert, Memory.wfAbove, hca, hv]
  | cons d m ih =>
    obtain ⟨d, w⟩ := d
    simp only [Memory.wfAbove, Bool.and_eq_true, decide_eq_true_eq] at h
    unfold Memory.insert
    split
    · rename_i had
      simp [Memory.wfAbove, hca, hv, had, h.1.2, h.2]
    · split
      · rename_i had
        subst had
        simp [Memory.wfAbove, hca, hv, h.2]
      · simp [Memory.wfAbove, h.1.1, h.1.2, ih h.2 (by omega)]

theorem Memory.wf_insert {m : Memory} (h : Memory.wf m = true) (a : Nat) {v : Byte} (hv : v ≠ Memory.unlisted) :
    Memory.wf (Memory.insert m a v) = true := by
  cases m with
  | nil => simp [Memory.insert, Memory.wf, Memory.wfAbove, hv]
  | cons d m =>
    obtain ⟨d, w⟩ := d
    simp only [Memory.wf, Bool.and_eq_true] at h
    unfold Memory.insert
    split
    · rename_i had
      simp [Memory.wf, Memory.wfAbove, hv, had, h.1, h.2]
    · split
      · rename_i had
        subst had
        simp [Memory.wf, hv, h.2]
      · simp [Memory.wf, h.1, Memory.wfAbove_insert h.2 (by omega : d < a) hv]

theorem Memory.wfAbove_erase {m : Memory} {c : Nat} (h : Memory.wfAbove c m = true) (a : Nat) :
    Memory.wfAbove c (Memory.erase m a) = true := by
  induction m generalizing c with
  | nil => rfl
  | cons d m ih =>
    obtain ⟨d, w⟩ := d
    simp only [Memory.wfAbove, Bool.and_eq_true, decide_eq_true_eq] at h
    unfold Memory.erase
    split
    · exact Memory.wfAbove_lower (ih h.2) (by omega)
    · simp [Memory.wfAbove, h.1.1, h.1.2, ih h.2]

theorem Memory.wf_erase {m : Memory} (h : Memory.wf m = true) (a : Nat) : Memory.wf (Memory.erase m a) = true := by
  cases m with
  | nil => rfl
  | cons d m =>
    obtain ⟨d, w⟩ := d
    simp only [Memory.wf, Bool.and_eq_true] at h
    unfold Memory.erase
    split
    · exact Memory.wf_of_wfAbove (Memory.wfAbove_erase h.2 a)
    · simp [Memory.wf, h.1, Memory.wfAbove_erase h.2 a]

/-- A write keeps the canonical form. -/
theorem Memory.wf_write {m : Memory} (h : Memory.wf m = true) (a : Nat) (v : Byte) :
    Memory.wf (Memory.write m a v) = true := by
  unfold Memory.write
  split
  · exact Memory.wf_erase h a
  · rename_i hv
    exact Memory.wf_insert h a hv

theorem Memory.wf_writeBytes {m : Memory} (h : Memory.wf m = true) (pa : Word) (bs : List Byte) :
    Memory.wf (m.writeBytes pa bs) = true := by
  induction bs generalizing m pa with
  | nil => exact h
  | cons b bs ih => exact ih (Memory.wf_write h _ _) _

/-- Two canonical memories that read alike are the same data. -/
theorem Memory.ext_wfAbove {m n : Memory} {a : Nat} (hm : Memory.wfAbove a m = true) (hn : Memory.wfAbove a n = true)
    (h : ∀ b, Memory.read m b = Memory.read n b) : m = n := by
  induction m generalizing a n with
  | nil =>
    cases n with
    | nil => rfl
    | cons d n =>
      obtain ⟨d, w⟩ := d
      simp only [Memory.wfAbove, Bool.and_eq_true, bne_iff_ne] at hn
      have := h d
      simp only [Memory.read, if_pos] at this
      exact absurd this.symm hn.1.2
  | cons c m ih =>
    obtain ⟨c, v⟩ := c
    simp only [Memory.wfAbove, Bool.and_eq_true, bne_iff_ne, decide_eq_true_eq] at hm
    cases n with
    | nil =>
      have := h c
      simp only [Memory.read, if_pos] at this
      exact absurd this hm.1.2
    | cons d n =>
      obtain ⟨d, w⟩ := d
      simp only [Memory.wfAbove, Bool.and_eq_true, bne_iff_ne, decide_eq_true_eq] at hn
      have hcd : c = d := by
        rcases Nat.lt_trichotomy c d with hlt | heq | hgt
        · have := h c
          simp only [Memory.read, if_pos, if_neg (by omega : ¬c = d)] at this
          rw [Memory.read_above hn.2 (by omega)] at this
          exact absurd this hm.1.2
        · exact heq
        · have := h d
          simp only [Memory.read, if_pos, if_neg (by omega : ¬d = c)] at this
          rw [Memory.read_above hm.2 (by omega)] at this
          exact absurd this.symm hn.1.2
      subst hcd
      have hv : v = w := by simpa [Memory.read] using h c
      subst hv
      congr 1
      refine ih hm.2 hn.2 fun b => ?_
      by_cases hb : b = c
      · subst hb
        rw [Memory.read_above hm.2 (Nat.le_refl b), Memory.read_above hn.2 (Nat.le_refl b)]
      · simpa [Memory.read, hb] using h b

/-- Reset's memory is canonical. -/
theorem Memory.wf_reset (p : Params) : Memory.wf (State.resetOf p).mem = true := rfl

/-! ### What is stored where -/

theorem Memory.read_writeBytes (m : Memory) (pa : Word) (bs : List Byte) (a : Nat) :
    Memory.read (m.writeBytes pa bs) a = afterStores (cellsFrom pa bs) a (Memory.read m a) := by
  induction bs generalizing m pa with
  | nil => rfl
  | cons b bs ih =>
    simp [Memory.writeBytes, cellsFrom, afterStores, ih, Memory.read_write]

theorem afterStores_outside (cells : List (Word × Byte)) (a : Nat) (old : Byte) (h : ∀ c ∈ cells, c.1.toNat ≠ a) :
    afterStores cells a old = old := by
  induction cells generalizing old with
  | nil => rfl
  | cons c cells ih =>
    obtain ⟨pa, v⟩ := c
    have h1 : a ≠ pa.toNat := Ne.symm (h (pa, v) (by simp))
    simp [afterStores, h1]
    exact ih old fun c hc => h c (by simp [hc])

/-- A store through the Mapper keeps the canonical form. -/
theorem wf_mapperStore {s : State} (h : memoryCanonical s) (pa : Word) (w : Width) (v : Word) (c : Client) :
    memoryCanonical (mapperStore s pa w v c) := by
  unfold mapperStore
  split
  · exact h
  · exact Memory.wf_writeBytes h _ _

/-- A fetch through the Mapper leaves memory as it is. -/
@[simp] theorem mapperFetch_mem (s : State) (pa : Word) (w : Width) (c : Client) : (mapperFetch s pa w c).2.mem = s.mem := by
  unfold mapperFetch
  split <;> rfl

end Sys2Proof.Machine
end

