-- ==== Sys2Proof/Laws/PerInstr.lean ====
section
/-! SUPPORT. The fields of an encoded word, and for every instruction that the decoder reads back what the encoder
writes (spec/30_encoding.md R200 to R216). -/

namespace Sys2Proof

set_option Elab.async false

/-! ### Fields of a word put together from its parts -/

/-- Bits above the lower part. -/
theorem extract_above {v w k n : Nat} {x : BitVec v} {y : BitVec w} (h : w ≤ k) :
    (x ++ y).extractLsb' k n = x.extractLsb' (k - w) n := BitVec.extractLsb'_append_eq_of_le h

/-- Bits within the lower part. -/
theorem extract_within {v w k n : Nat} {x : BitVec v} {y : BitVec w} (h : k + n ≤ w) :
    (x ++ y).extractLsb' k n = y.extractLsb' k n := BitVec.extractLsb'_append_eq_of_add_le h

@[simp] theorem opOf_rWord (rs rt rd sa : BitVec 5) (f : BitVec 6) : opOf (rWord rs rt rd sa f) = 0x00#6 := by
  unfold opOf rWord
  rw [extract_above, extract_above, extract_above, extract_above, extract_above] <;> simp

@[simp] theorem rsBits_rWord (rs rt rd sa : BitVec 5) (f : BitVec 6) : rsBits (rWord rs rt rd sa f) = rs := by
  unfold rsBits rWord
  rw [extract_above, extract_above, extract_above, extract_above, extract_within] <;> simp

@[simp] theorem rtBits_rWord (rs rt rd sa : BitVec 5) (f : BitVec 6) : rtBits (rWord rs rt rd sa f) = rt := by
  unfold rtBits rWord
  rw [extract_above, extract_above, extract_above, extract_within] <;> simp

@[simp] theorem rdBits_rWord (rs rt rd sa : BitVec 5) (f : BitVec 6) : rdBits (rWord rs rt rd sa f) = rd := by
  unfold rdBits rWord
  rw [extract_above, extract_above, extract_within] <;> simp

@[simp] theorem shamtBits_rWord (rs rt rd sa : BitVec 5) (f : BitVec 6) : shamtBits (rWord rs rt rd sa f) = sa := by
  unfold shamtBits rWord
  rw [extract_above, extract_within] <;> simp

@[simp] theorem functOf_rWord (rs rt rd sa : BitVec 5) (f : BitVec 6) : functOf (rWord rs rt rd sa f) = f := by
  unfold functOf rWord
  rw [extract_within] <;> simp

@[simp] theorem opOf_iWord (op : BitVec 6) (rs rt : BitVec 5) (imm : BitVec 16) : opOf (iWord op rs rt imm) = op := by
  unfold opOf iWord
  rw [extract_above, extract_above, extract_above] <;> simp

@[simp] theorem rsBits_iWord (op : BitVec 6) (rs rt : BitVec 5) (imm : BitVec 16) : rsBits (iWord op rs rt imm) = rs := by
  unfold rsBits iWord
  rw [extract_above, extract_above, extract_within] <;> simp

@[simp] theorem rtBits_iWord (op : BitVec 6) (rs rt : BitVec 5) (imm : BitVec 16) : rtBits (iWord op rs rt imm) = rt := by
  unfold rtBits iWord
  rw [extract_above, extract_within] <;> simp

@[simp] theorem immOf_iWord (op : BitVec 6) (rs rt : BitVec 5) (imm : BitVec 16) : immOf (iWord op rs rt imm) = imm := by
  unfold immOf iWord
  rw [extract_within] <;> simp

@[simp] theorem opOf_jWord (op : BitVec 6) (t : BitVec 26) : opOf (jWord op t) = op := by
  unfold opOf jWord
  rw [extract_above] <;> simp

@[simp] theorem targetOf_jWord (op : BitVec 6) (t : BitVec 26) : targetOf (jWord op t) = t := by
  unfold targetOf jWord
  rw [extract_within] <;> simp

@[simp] theorem opOf_codeWord (c : BitVec 20) (f : BitVec 6) : opOf (codeWord c f) = 0x00#6 := by
  unfold opOf codeWord
  rw [extract_above, extract_above] <;> simp

@[simp] theorem codeOf_codeWord (c : BitVec 20) (f : BitVec 6) : codeOf (codeWord c f) = c := by
  unfold codeOf codeWord
  rw [extract_above, extract_within] <;> simp

@[simp] theorem functOf_codeWord (c : BitVec 20) (f : BitVec 6) : functOf (codeWord c f) = f := by
  unfold functOf codeWord
  rw [extract_within] <;> simp

@[simp] theorem opOf_cop0Word (sub rt rd : BitVec 5) : opOf (cop0Word sub rt rd) = 0x10#6 := by
  unfold opOf cop0Word
  rw [extract_above, extract_above, extract_above, extract_above] <;> simp

@[simp] theorem rsBits_cop0Word (sub rt rd : BitVec 5) : rsBits (cop0Word sub rt rd) = sub := by
  unfold rsBits cop0Word
  rw [extract_above, extract_above, extract_above, extract_within] <;> simp

@[simp] theorem rtBits_cop0Word (sub rt rd : BitVec 5) : rtBits (cop0Word sub rt rd) = rt := by
  unfold rtBits cop0Word
  rw [extract_above, extract_above, extract_within] <;> simp

@[simp] theorem rdBits_cop0Word (sub rt rd : BitVec 5) : rdBits (cop0Word sub rt rd) = rd := by
  unfold rdBits cop0Word
  rw [extract_above, extract_within] <;> simp

@[simp] theorem opOf_cop0OpWord (f : BitVec 6) : opOf (cop0OpWord f) = 0x10#6 := by
  unfold opOf cop0OpWord
  rw [extract_above, extract_above, extract_above] <;> simp

@[simp] theorem rsBits_cop0OpWord (f : BitVec 6) : rsBits (cop0OpWord f) = 0x10#5 := by
  unfold rsBits cop0OpWord
  rw [extract_above, extract_above, extract_within] <;> simp

@[simp] theorem functOf_cop0OpWord (f : BitVec 6) : functOf (cop0OpWord f) = f := by
  unfold functOf cop0OpWord
  rw [extract_within] <;> simp

@[simp] theorem regOf_regBits (r : Reg) : regOf (regBits r) = r := rfl

theorem toNat_numBits {n : Nat} (h : fits5 n = true) : (numBits n).toNat = n := by
  simp only [fits5, decide_eq_true_eq] at h
  simp [numBits]
  omega

namespace Laws

/-- The instruction is what its own word decodes to, if it is well-formed. -/
def RoundTrip.Statement (i : Instr) : Prop := i.wellFormed = true → decode (encode i) = .ok i

theorem RoundTrip.sll (rt rd : Reg) (shamt : Nat) : RoundTrip.Statement (.sll rt rd shamt) := fun h => by
  simp [encode, decode, decodeSpecial, toNat_numBits h]

theorem RoundTrip.srl (rt rd : Reg) (shamt : Nat) : RoundTrip.Statement (.srl rt rd shamt) := fun h => by
  simp [encode, decode, decodeSpecial, toNat_numBits h]

theorem RoundTrip.sra (rt rd : Reg) (shamt : Nat) : RoundTrip.Statement (.sra rt rd shamt) := fun h => by
  simp [encode, decode, decodeSpecial, toNat_numBits h]

theorem RoundTrip.sllv (rs rt rd : Reg) : RoundTrip.Statement (.sllv rs rt rd) := fun _ => by
  simp [encode, decode, decodeSpecial]

theorem RoundTrip.srlv (rs rt rd : Reg) : RoundTrip.Statement (.srlv rs rt rd) := fun _ => by
  simp [encode, decode, decodeSpecial]

theorem RoundTrip.srav (rs rt rd : Reg) : RoundTrip.Statement (.srav rs rt rd) := fun _ => by
  simp [encode, decode, decodeSpecial]

theorem RoundTrip.jr (rs : Reg) : RoundTrip.Statement (.jr rs) := fun _ => by
  simp [encode, decode, decodeSpecial]

theorem RoundTrip.jalr (rs rd : Reg) : RoundTrip.Statement (.jalr rs rd) := fun _ => by
  simp [encode, decode, decodeSpecial]

theorem RoundTrip.syscall (code : BitVec 20) : RoundTrip.Statement (.syscall code) := fun _ => by
  simp [encode, decode, decodeSpecial]

theorem RoundTrip.brk (code : BitVec 20) : RoundTrip.Statement (.brk code) := fun _ => by
  simp [encode, decode, decodeSpecial]

theorem RoundTrip.mfhi (rd : Reg) : RoundTrip.Statement (.mfhi rd) := fun _ => by
  simp [encode, decode, decodeSpecial]

theorem RoundTrip.mthi (rs : Reg) : RoundTrip.Statement (.mthi rs) := fun _ => by
  simp [encode, decode, decodeSpecial]

theorem RoundTrip.mflo (rd : Reg) : RoundTrip.Statement (.mflo rd) := fun _ => by
  simp [encode, decode, decodeSpecial]

theorem RoundTrip.mtlo (rs : Reg) : RoundTrip.Statement (.mtlo rs) := fun _ => by
  simp [encode, decode, decodeSpecial]

theorem RoundTrip.mult (rs rt : Reg) : RoundTrip.Statement (.mult rs rt) := fun _ => by
  simp [encode, decode, decodeSpecial]

theorem RoundTrip.multu (rs rt : Reg) : RoundTrip.Statement (.multu rs rt) := fun _ => by
  simp [encode, decode, decodeSpecial]

theorem RoundTrip.div (rs rt : Reg) : RoundTrip.Statement (.div rs rt) := fun _ => by
  simp [encode, decode, decodeSpecial]

theorem RoundTrip.divu (rs rt : Reg) : RoundTrip.Statement (.divu rs rt) := fun _ => by
  simp [encode, decode, decodeSpecial]

theorem RoundTrip.add (rs rt rd : Reg) : RoundTrip.Statement (.add rs rt rd) := fun _ => by
  simp [encode, decode, decodeSpecial]

theorem RoundTrip.addu (rs rt rd : Reg) : RoundTrip.Statement (.addu rs rt rd) := fun _ => by
  simp [encode, decode, decodeSpecial]

theorem RoundTrip.sub (rs rt rd : Reg) : RoundTrip.Statement (.sub rs rt rd) := fun _ => by
  simp [encode, decode, decodeSpecial]

theorem RoundTrip.subu (rs rt rd : Reg) : RoundTrip.Statement (.subu rs rt rd) := fun _ => by
  simp [encode, decode, decodeSpecial]

theorem RoundTrip.and (rs rt rd : Reg) : RoundTrip.Statement (.and rs rt rd) := fun _ => by
  simp [encode, decode, decodeSpecial]

theorem RoundTrip.or (rs rt rd : Reg) : RoundTrip.Statement (.or rs rt rd) := fun _ => by
  simp [encode, decode, decodeSpecial]

theorem RoundTrip.xor (rs rt rd : Reg) : RoundTrip.Statement (.xor rs rt rd) := fun _ => by
  simp [encode, decode, decodeSpecial]

theorem RoundTrip.nor (rs rt rd : Reg) : RoundTrip.Statement (.nor rs rt rd) := fun _ => by
  simp [encode, decode, decodeSpecial]

theorem RoundTrip.slt (rs rt rd : Reg) : RoundTrip.Statement (.slt rs rt rd) := fun _ => by
  simp [encode, decode, decodeSpecial]

theorem RoundTrip.sltu (rs rt rd : Reg) : RoundTrip.Statement (.sltu rs rt rd) := fun _ => by
  simp [encode, decode, decodeSpecial]

theorem RoundTrip.bltz (rs : Reg) (offset : BitVec 16) : RoundTrip.Statement (.bltz rs offset) := fun _ => by
  simp [encode, decode, decodeRegimm]

theorem RoundTrip.bgez (rs : Reg) (offset : BitVec 16) : RoundTrip.Statement (.bgez rs offset) := fun _ => by
  simp [encode, decode, decodeRegimm]

theorem RoundTrip.bltzal (rs : Reg) (offset : BitVec 16) : RoundTrip.Statement (.bltzal rs offset) := fun _ => by
  simp [encode, decode, decodeRegimm]

theorem RoundTrip.bgezal (rs : Reg) (offset : BitVec 16) : RoundTrip.Statement (.bgezal rs offset) := fun _ => by
  simp [encode, decode, decodeRegimm]

theorem RoundTrip.j (target : BitVec 26) : RoundTrip.Statement (.j target) := fun _ => by
  simp [encode, decode]

theorem RoundTrip.jal (target : BitVec 26) : RoundTrip.Statement (.jal target) := fun _ => by
  simp [encode, decode]

theorem RoundTrip.beq (rs rt : Reg) (offset : BitVec 16) : RoundTrip.Statement (.beq rs rt offset) := fun _ => by
  simp [encode, decode]

theorem RoundTrip.bne (rs rt : Reg) (offset : BitVec 16) : RoundTrip.Statement (.bne rs rt offset) := fun _ => by
  simp [encode, decode]

theorem RoundTrip.blez (rs : Reg) (offset : BitVec 16) : RoundTrip.Statement (.blez rs offset) := fun _ => by
  simp [encode, decode]

theorem RoundTrip.bgtz (rs : Reg) (offset : BitVec 16) : RoundTrip.Statement (.bgtz rs offset) := fun _ => by
  simp [encode, decode]

theorem RoundTrip.addi (rs rt : Reg) (imm : BitVec 16) : RoundTrip.Statement (.addi rs rt imm) := fun _ => by
  simp [encode, decode]

theorem RoundTrip.addiu (rs rt : Reg) (imm : BitVec 16) : RoundTrip.Statement (.addiu rs rt imm) := fun _ => by
  simp [encode, decode]

theorem RoundTrip.slti (rs rt : Reg) (imm : BitVec 16) : RoundTrip.Statement (.slti rs rt imm) := fun _ => by
  simp [encode, decode]

theorem RoundTrip.sltiu (rs rt : Reg) (imm : BitVec 16) : RoundTrip.Statement (.sltiu rs rt imm) := fun _ => by
  simp [encode, decode]

theorem RoundTrip.andi (rs rt : Reg) (imm : BitVec 16) : RoundTrip.Statement (.andi rs rt imm) := fun _ => by
  simp [encode, decode]

theorem RoundTrip.ori (rs rt : Reg) (imm : BitVec 16) : RoundTrip.Statement (.ori rs rt imm) := fun _ => by
  simp [encode, decode]

theorem RoundTrip.xori (rs rt : Reg) (imm : BitVec 16) : RoundTrip.Statement (.xori rs rt imm) := fun _ => by
  simp [encode, decode]

theorem RoundTrip.lui (rt : Reg) (imm : BitVec 16) : RoundTrip.Statement (.lui rt imm) := fun _ => by
  simp [encode, decode]

theorem RoundTrip.lb (base rt : Reg) (offset : BitVec 16) : RoundTrip.Statement (.lb base rt offset) := fun _ => by
  simp [encode, decode]

theorem RoundTrip.lh (base rt : Reg) (offset : BitVec 16) : RoundTrip.Statement (.lh base rt offset) := fun _ => by
  simp [encode, decode]

theorem RoundTrip.lwl (base rt : Reg) (offset : BitVec 16) : RoundTrip.Statement (.lwl base rt offset) := fun _ => by
  simp [encode, decode]

theorem RoundTrip.lw (base rt : Reg) (offset : BitVec 16) : RoundTrip.Statement (.lw base rt offset) := fun _ => by
  simp [encode, decode]

theorem RoundTrip.lbu (base rt : Reg) (offset : BitVec 16) : RoundTrip.Statement (.lbu base rt offset) := fun _ => by
  simp [encode, decode]

theorem RoundTrip.lhu (base rt : Reg) (offset : BitVec 16) : RoundTrip.Statement (.lhu base rt offset) := fun _ => by
  simp [encode, decode]

theorem RoundTrip.lwr (base rt : Reg) (offset : BitVec 16) : RoundTrip.Statement (.lwr base rt offset) := fun _ => by
  simp [encode, decode]

theorem RoundTrip.sb (base rt : Reg) (offset : BitVec 16) : RoundTrip.Statement (.sb base rt offset) := fun _ => by
  simp [encode, decode]

theorem RoundTrip.sh (base rt : Reg) (offset : BitVec 16) : RoundTrip.Statement (.sh base rt offset) := fun _ => by
  simp [encode, decode]

theorem RoundTrip.swl (base rt : Reg) (offset : BitVec 16) : RoundTrip.Statement (.swl base rt offset) := fun _ => by
  simp [encode, decode]

theorem RoundTrip.sw (base rt : Reg) (offset : BitVec 16) : RoundTrip.Statement (.sw base rt offset) := fun _ => by
  simp [encode, decode]

theorem RoundTrip.swr (base rt : Reg) (offset : BitVec 16) : RoundTrip.Statement (.swr base rt offset) := fun _ => by
  simp [encode, decode]

theorem RoundTrip.cache (base : Reg) (op : Nat) (offset : BitVec 16) : RoundTrip.Statement (.cache base op offset) := fun h => by
  simp [encode, decode, toNat_numBits h]

theorem RoundTrip.mfc0 (rt : Reg) (rd : Nat) : RoundTrip.Statement (.mfc0 rt rd) := fun h => by
  simp [encode, decode, decodeCop0, toNat_numBits h]

theorem RoundTrip.mtc0 (rt : Reg) (rd : Nat) : RoundTrip.Statement (.mtc0 rt rd) := fun h => by
  simp [encode, decode, decodeCop0, toNat_numBits h]

theorem RoundTrip.tlbr : RoundTrip.Statement (.tlbr) := fun _ => by
  simp [encode, decode, decodeCop0, decodeCop0Op]

theorem RoundTrip.tlbwi : RoundTrip.Statement (.tlbwi) := fun _ => by
  simp [encode, decode, decodeCop0, decodeCop0Op]

theorem RoundTrip.tlbwr : RoundTrip.Statement (.tlbwr) := fun _ => by
  simp [encode, decode, decodeCop0, decodeCop0Op]

theorem RoundTrip.tlbp : RoundTrip.Statement (.tlbp) := fun _ => by
  simp [encode, decode, decodeCop0, decodeCop0Op]

theorem RoundTrip.rfe : RoundTrip.Statement (.rfe) := fun _ => by
  simp [encode, decode, decodeCop0, decodeCop0Op]

theorem RoundTrip.cop1 (sub : BitVec 26) : RoundTrip.Statement (.cop1 sub) := fun _ => by
  simp [encode, decode]

theorem RoundTrip.cop2 (sub : BitVec 26) : RoundTrip.Statement (.cop2 sub) := fun _ => by
  simp [encode, decode]

theorem RoundTrip.cop3 (sub : BitVec 26) : RoundTrip.Statement (.cop3 sub) := fun _ => by
  simp [encode, decode]

theorem RoundTrip.lwc1 (base : Reg) (rt : Nat) (offset : BitVec 16) : RoundTrip.Statement (.lwc1 base rt offset) := fun h => by
  simp [encode, decode, toNat_numBits h]

theorem RoundTrip.lwc2 (base : Reg) (rt : Nat) (offset : BitVec 16) : RoundTrip.Statement (.lwc2 base rt offset) := fun h => by
  simp [encode, decode, toNat_numBits h]

theorem RoundTrip.lwc3 (base : Reg) (rt : Nat) (offset : BitVec 16) : RoundTrip.Statement (.lwc3 base rt offset) := fun h => by
  simp [encode, decode, toNat_numBits h]

theorem RoundTrip.swc1 (base : Reg) (rt : Nat) (offset : BitVec 16) : RoundTrip.Statement (.swc1 base rt offset) := fun h => by
  simp [encode, decode, toNat_numBits h]

theorem RoundTrip.swc2 (base : Reg) (rt : Nat) (offset : BitVec 16) : RoundTrip.Statement (.swc2 base rt offset) := fun h => by
  simp [encode, decode, toNat_numBits h]

theorem RoundTrip.swc3 (base : Reg) (rt : Nat) (offset : BitVec 16) : RoundTrip.Statement (.swc3 base rt offset) := fun h => by
  simp [encode, decode, toNat_numBits h]

end Laws

end Sys2Proof
end

