-- ==== Sys2Proof/Machine/Assembler.lean ====
section
/-! DEFINITION. The assembler's view (spec/30_encoding.md R221, R222): the field a label operand assembles to, and the
pseudo-instructions as the instructions they expand to. Nothing in the machine uses it. -/

namespace Sys2Proof.Machine

/-- The offset field of a branch at `pc` to `label`: (label - (pc + 4)) >> 2 (R221). -/
def branchField (pc label : Word) : BitVec 16 := ((label - (pc + 4#32)).sshiftRight 2).extractLsb' 0 16

/-- The target field of J and JAL to `label`: label[27:2] (R221). -/
def jumpField (label : Word) : BitVec 26 := label.extractLsb' 2 26

/-- A register as the assembler writes it (R221). -/
def regText (r : Reg) : String := "r" ++ toString r.val

/-- Operands separated as the assembler writes them. -/
def operandText (ops : List String) : String := String.intercalate ", " ops

/-- offset(base). -/
def memText (offset : BitVec 16) (base : Reg) : String := toString offset.toInt ++ "(" ++ regText base ++ ")"

/-- A CP0 register number, $n. -/
def cp0Text (n : Nat) : String := "$" ++ toString n

/-- The assembler text of an instruction, operands destination first; branch and jump operands are shown as their
fields (R221). -/
def asmText : Instr → String
  | .sll rt rd shamt => "sll " ++ operandText [regText rd, regText rt, toString shamt]
  | .srl rt rd shamt => "srl " ++ operandText [regText rd, regText rt, toString shamt]
  | .sra rt rd shamt => "sra " ++ operandText [regText rd, regText rt, toString shamt]
  | .sllv rs rt rd => "sllv " ++ operandText [regText rd, regText rt, regText rs]
  | .srlv rs rt rd => "srlv " ++ operandText [regText rd, regText rt, regText rs]
  | .srav rs rt rd => "srav " ++ operandText [regText rd, regText rt, regText rs]
  | .jr rs => "jr " ++ operandText [regText rs]
  | .jalr rs rd => "jalr " ++ operandText [regText rd, regText rs]
  | .syscall code => "syscall " ++ operandText [toString code.toNat]
  | .brk code => "break " ++ operandText [toString code.toNat]
  | .mfhi rd => "mfhi " ++ operandText [regText rd]
  | .mthi rs => "mthi " ++ operandText [regText rs]
  | .mflo rd => "mflo " ++ operandText [regText rd]
  | .mtlo rs => "mtlo " ++ operandText [regText rs]
  | .mult rs rt => "mult " ++ operandText [regText rs, regText rt]
  | .multu rs rt => "multu " ++ operandText [regText rs, regText rt]
  | .div rs rt => "div " ++ operandText [regText rs, regText rt]
  | .divu rs rt => "divu " ++ operandText [regText rs, regText rt]
  | .add rs rt rd => "add " ++ operandText [regText rd, regText rs, regText rt]
  | .addu rs rt rd => "addu " ++ operandText [regText rd, regText rs, regText rt]
  | .sub rs rt rd => "sub " ++ operandText [regText rd, regText rs, regText rt]
  | .subu rs rt rd => "subu " ++ operandText [regText rd, regText rs, regText rt]
  | .and rs rt rd => "and " ++ operandText [regText rd, regText rs, regText rt]
  | .or rs rt rd => "or " ++ operandText [regText rd, regText rs, regText rt]
  | .xor rs rt rd => "xor " ++ operandText [regText rd, regText rs, regText rt]
  | .nor rs rt rd => "nor " ++ operandText [regText rd, regText rs, regText rt]
  | .slt rs rt rd => "slt " ++ operandText [regText rd, regText rs, regText rt]
  | .sltu rs rt rd => "sltu " ++ operandText [regText rd, regText rs, regText rt]
  | .bltz rs offset => "bltz " ++ operandText [regText rs, toString offset.toInt]
  | .bgez rs offset => "bgez " ++ operandText [regText rs, toString offset.toInt]
  | .bltzal rs offset => "bltzal " ++ operandText [regText rs, toString offset.toInt]
  | .bgezal rs offset => "bgezal " ++ operandText [regText rs, toString offset.toInt]
  | .j target => "j " ++ operandText [toString target.toNat]
  | .jal target => "jal " ++ operandText [toString target.toNat]
  | .beq rs rt offset => "beq " ++ operandText [regText rs, regText rt, toString offset.toInt]
  | .bne rs rt offset => "bne " ++ operandText [regText rs, regText rt, toString offset.toInt]
  | .blez rs offset => "blez " ++ operandText [regText rs, toString offset.toInt]
  | .bgtz rs offset => "bgtz " ++ operandText [regText rs, toString offset.toInt]
  | .addi rs rt imm => "addi " ++ operandText [regText rt, regText rs, toString imm.toInt]
  | .addiu rs rt imm => "addiu " ++ operandText [regText rt, regText rs, toString imm.toInt]
  | .slti rs rt imm => "slti " ++ operandText [regText rt, regText rs, toString imm.toInt]
  | .sltiu rs rt imm => "sltiu " ++ operandText [regText rt, regText rs, toString imm.toInt]
  | .andi rs rt imm => "andi " ++ operandText [regText rt, regText rs, toString imm.toNat]
  | .ori rs rt imm => "ori " ++ operandText [regText rt, regText rs, toString imm.toNat]
  | .xori rs rt imm => "xori " ++ operandText [regText rt, regText rs, toString imm.toNat]
  | .lui rt imm => "lui " ++ operandText [regText rt, toString imm.toNat]
  | .lb base rt offset => "lb " ++ operandText [regText rt, memText offset base]
  | .lh base rt offset => "lh " ++ operandText [regText rt, memText offset base]
  | .lwl base rt offset => "lwl " ++ operandText [regText rt, memText offset base]
  | .lw base rt offset => "lw " ++ operandText [regText rt, memText offset base]
  | .lbu base rt offset => "lbu " ++ operandText [regText rt, memText offset base]
  | .lhu base rt offset => "lhu " ++ operandText [regText rt, memText offset base]
  | .lwr base rt offset => "lwr " ++ operandText [regText rt, memText offset base]
  | .sb base rt offset => "sb " ++ operandText [regText rt, memText offset base]
  | .sh base rt offset => "sh " ++ operandText [regText rt, memText offset base]
  | .swl base rt offset => "swl " ++ operandText [regText rt, memText offset base]
  | .sw base rt offset => "sw " ++ operandText [regText rt, memText offset base]
  | .swr base rt offset => "swr " ++ operandText [regText rt, memText offset base]
  | .cache base op offset => "cache " ++ operandText [toString op, memText offset base]
  | .mfc0 rt rd => "mfc0 " ++ operandText [regText rt, cp0Text rd]
  | .mtc0 rt rd => "mtc0 " ++ operandText [regText rt, cp0Text rd]
  | .tlbr => "tlbr"
  | .tlbwi => "tlbwi"
  | .tlbwr => "tlbwr"
  | .tlbp => "tlbp"
  | .rfe => "rfe"
  | .cop1 sub => "cop1 " ++ operandText [toString sub.toNat]
  | .cop2 sub => "cop2 " ++ operandText [toString sub.toNat]
  | .cop3 sub => "cop3 " ++ operandText [toString sub.toNat]
  | .lwc1 base rt offset => "lwc1 " ++ operandText [cp0Text rt, memText offset base]
  | .lwc2 base rt offset => "lwc2 " ++ operandText [cp0Text rt, memText offset base]
  | .lwc3 base rt offset => "lwc3 " ++ operandText [cp0Text rt, memText offset base]
  | .swc1 base rt offset => "swc1 " ++ operandText [cp0Text rt, memText offset base]
  | .swc2 base rt offset => "swc2 " ++ operandText [cp0Text rt, memText offset base]
  | .swc3 base rt offset => "swc3 " ++ operandText [cp0Text rt, memText offset base]

/-- The pseudo-instructions of R222; a branch's `offset` is the field its label assembles to, which for the
two-instruction forms is that of their second instruction. -/
inductive Pseudo where
  | nop
  | move (rd rs : Reg)
  | li (rt : Reg) (v : Word)
  | la (rt : Reg) (sym : Word)
  | b (offset : BitVec 16)
  | bal (offset : BitVec 16)
  | beqz (rs : Reg) (offset : BitVec 16)
  | bnez (rs : Reg) (offset : BitVec 16)
  | neg (rd rs : Reg)
  | negu (rd rs : Reg)
  | not (rd rs : Reg)
  | blt (rs rt : Reg) (offset : BitVec 16)
  | bge (rs rt : Reg) (offset : BitVec 16)
  | bgt (rs rt : Reg) (offset : BitVec 16)
  | ble (rs rt : Reg) (offset : BitVec 16)
  deriving DecidableEq, Repr

/-- LUI and ORI of a 32-bit constant (R222). -/
def loadConstant (rt : Reg) (v : Word) : List Instr :=
  [.lui rt (v.extractLsb' 16 16), .ori rt rt (v.extractLsb' 0 16)]

/-- The expansion of a pseudo-instruction (R222). -/
def Pseudo.expand : Pseudo → List Instr
  | .nop => [.sll 0 0 0]
  | .move rd rs => [.addu rs 0 rd]
  | .li rt v =>
    if sext16 (v.extractLsb' 0 16) = v then [.addiu 0 rt (v.extractLsb' 0 16)]
    else if zext16 (v.extractLsb' 0 16) = v then [.ori 0 rt (v.extractLsb' 0 16)]
    else loadConstant rt v
  | .la rt sym => loadConstant rt sym
  | .b offset => [.beq 0 0 offset]
  | .bal offset => [.bgezal 0 offset]
  | .beqz rs offset => [.beq rs 0 offset]
  | .bnez rs offset => [.bne rs 0 offset]
  | .neg rd rs => [.sub 0 rs rd]
  | .negu rd rs => [.subu 0 rs rd]
  | .not rd rs => [.nor rs 0 rd]
  | .blt rs rt offset => [.slt rs rt 1, .bne 1 0 offset]
  | .bge rs rt offset => [.slt rs rt 1, .beq 1 0 offset]
  | .bgt rs rt offset => [.slt rt rs 1, .bne 1 0 offset]
  | .ble rs rt offset => [.slt rt rs 1, .beq 1 0 offset]

end Sys2Proof.Machine
end

