-- ==== Sys2Proof/Tests/Slice0.lean ====
section
/-! SUPPORT. Tests of one instruction or one operation each, their expected results from the rules' examples and from
spec/95_test_vectors.md, and one witness for every statement that has hypotheses. -/

namespace Sys2Proof.Tests

open Sys2Proof.Machine

set_option Elab.async false

/-! ### Helpers -/

/-- `s` with general registers written in order. -/
def withRegs (rs : List (Reg × Word)) (s : State) : State := rs.foldl (fun s x => writeGpr s x.1 x.2) s

/-- The next state of an outcome. -/
def nextOf : Out → Option State
  | .next t => some t
  | .fault _ => none
  | .refused _ => none

/-- The state after `i` alone at the reset address. -/
def after (i : Instr) (s : State) (p : Word := 0xBFC00000#32) : Option State := nextOf (runAlone i (issue s p (encode i)))

/-- A general register after. -/
def gpr (o : Option State) (r : Reg) : Option Word := o.map fun t => readGpr t r

/-- HI and LO after. -/
def hiLo (o : Option State) : Option (Word × Word) := o.map fun t => (t.hi, t.lo)

/-- The fetch register after. -/
def pcOf (o : Option State) : Option Word := o.map fun t => t.pc

/-- ExcCode, EPC and the fetch register after. -/
def taken (o : Option State) : Option (BitVec 5 × Word × Word) := o.map fun t => (t.cause.extractLsb' 2 5, t.epc, t.pc)

/-- Memory bytes after. -/
def bytesAt (o : Option State) (a : Word) (n : Nat) : Option (List Byte) := o.map fun t => t.mem.readBytes a n

/-- Reset with the other byte order. -/
def littleReset : State := { State.reset with cfg := { Config.params with endian := .little } }

/-- Reset in user mode, BEV kept. -/
def user : State := { State.reset with sr := 0x00400002#32 }

/-- User mode with coprocessor 0 usable. -/
def userCu0 : State := { State.reset with sr := 0x10400002#32 }

/-- The bytes of spec/95_test_vectors.md section 2.3 at physical 0x100. -/
def memory8 : Memory :=
  [(0x100, 0x11#8), (0x101, 0x22#8), (0x102, 0x33#8), (0x103, 0x44#8), (0x104, 0x85#8), (0x105, 0x66#8), (0x106, 0x77#8),
    (0x107, 0x88#8)]

/-- `s` with those bytes and r1 the uncached address of the first. -/
def loaded (s : State) : State := withRegs [(1, 0xA0000100#32), (2, 0xAABBCCDD#32)] { s with mem := memory8 }

/-- A DCACHE line at index 0 for physical 0x100. -/
def line100 (dirty : Bool) : CacheLine :=
  { valid := true, dirty := dirty, tag := 4#32, data := [0x11223344#32, 0x55667788#32, 0#32, 0x99AABBCC#32] }

/-- Reset with that line in way 0 of DCACHE, and r1 its kseg0 address. -/
def cachedState (dirty : Bool) : State :=
  withRegs [(1, 0x80000100#32), (2, 0xAABBCCDD#32)]
    { State.reset with cycle := 9, dcache := State.reset.dcache.setLine Config.params.dcacheGeom 0 0 (line100 dirty) }

/-- The line of physical 0x100 dirty in way 0 and another dirty in way 1, both of index 0. -/
def fullSet : State :=
  { cachedState true with
    dcache := (cachedState true).dcache.setLine Config.params.dcacheGeom 1 0 { line100 true with tag := 5#32, lastAccess := 3 } }

/-- DCACHE with the dirty line of physical 0x100 about to be written back, for CACHE or to make room for a fill. -/
def storing (st : CtrlState) (f : Option Fill) : State :=
  { cachedState true with
    dcache := { (cachedState true).dcache with
      ctrl := st, txn := some (writebackTxn Config.params.dcacheGeom .dcache 0x100#32 0 0 true f) } }

/-- Reset with a device at physical 0x1F000000, r1 its kseg1 address. -/
def deviceState : State :=
  withRegs [(1, 0xBF000000#32)]
    { State.reset with
      cfg := { Config.params with
        regions := Config.params.regions ++ [{ base := 0x1F000000, size := 0x1000, kind := .device }] } }

/-- Reset with one rule of Translate over the whole space. -/
def mappedBy (a : TransAct) : State :=
  { State.reset with
    cfg := { Config.params with
      translate :=
        [{ first := 0#32, last := 0xFFFFFFFF#32, onFetch := true, onLoad := true, onStore := true, act := a }] } }

/-- Reset with the bytes of `memory8` and a Translate that moves every address up by three, uncached. -/
def offPlace : State := { mappedBy (.map 3#32 false true) with mem := memory8 }

theorem next_of_isSome {o : Out} (h : (nextOf o).isSome = true) : ∃ t, o = .next t := by
  cases o with
  | next t => exact ⟨t, rfl⟩
  | fault f => cases h
  | refused r => cases h

/-! ### Well-formedness: an ill-formed term for each check (spec/00_scope.md R9, spec/30_encoding.md R201 to R204) -/

theorem test_refuses_shift_amount :
    Instr.wellFormed (.sll 1 2 32) = false ∧ Instr.wellFormed (.srl 1 2 32) = false ∧ Instr.wellFormed (.sra 1 2 99) = false := by
  decide

theorem test_refuses_cache_op : Instr.wellFormed (.cache 1 32 0#16) = false := by decide

theorem test_refuses_cp0_number : Instr.wellFormed (.mfc0 1 32) = false ∧ Instr.wellFormed (.mtc0 1 64) = false := by decide

theorem test_refuses_coprocessor_register :
    Instr.wellFormed (.lwc1 1 32 0#16) = false ∧ Instr.wellFormed (.lwc2 1 32 0#16) = false ∧
      Instr.wellFormed (.lwc3 1 32 0#16) = false ∧ Instr.wellFormed (.swc1 1 32 0#16) = false ∧
      Instr.wellFormed (.swc2 1 32 0#16) = false ∧ Instr.wellFormed (.swc3 1 32 0#16) = false := by
  decide

/-- spec/95_test_vectors.md section 2.7. -/
theorem test_refuses_geometry :
    Geometry.wellFormed { blockSize := 12, blockCount := 4, ways := 2 } = false ∧
      Geometry.wellFormed { blockSize := 2, blockCount := 4, ways := 2 } = false ∧
      Geometry.wellFormed { blockSize := 16, blockCount := 3, ways := 2 } = false ∧
      Geometry.wellFormed { blockSize := 16, blockCount := 0, ways := 2 } = false ∧
      Geometry.wellFormed { blockSize := 16, blockCount := 4, ways := 0 } = false ∧
      Geometry.wellFormed { blockSize := 4, blockCount := 1, ways := 1 } = true := by
  decide

theorem test_refuses_parameters :
    Params.wellFormed { Config.params with icacheGeom := { blockSize := 12, blockCount := 4, ways := 2 } } = false ∧
      Params.wellFormed { Config.params with dcacheGeom := { blockSize := 16, blockCount := 4, ways := 0 } } = false ∧
      Params.wellFormed Config.params = true := by
  decide

/-! ### Decoding: words written out from the fields of spec/30_encoding.md -/

/-- R214: opcode 0, the shifts. -/
theorem test_decode_shifts :
    decode 0b00000000000000101000110011000000#32 = .ok (.sll 2 17 19) ∧
      decode 0b00000000000000101000110011000010#32 = .ok (.srl 2 17 19) ∧
      decode 0b00000000000000101000110011000011#32 = .ok (.sra 2 17 19) ∧
      decode 0b00000001001000101000100000000100#32 = .ok (.sllv 9 2 17) ∧
      decode 0b00000001001000101000100000000110#32 = .ok (.srlv 9 2 17) ∧
      decode 0b00000001001000101000100000000111#32 = .ok (.srav 9 2 17) := by
  decide

/-- R214: jumps by register, SYSCALL, BREAK. -/
theorem test_decode_jumps_and_traps :
    decode 0b00000010101000000000000000001000#32 = .ok (.jr 21) ∧
      decode 0b00000010101000000101100000001001#32 = .ok (.jalr 21 11) ∧
      decode 0b00000010000000000000000001001100#32 = .ok (.syscall 0x80001#20) ∧
      decode 0b00000011111111111111111111001101#32 = .ok (.brk 0xFFFFF#20) := by
  decide

/-- R214: HI, LO, multiply, divide. -/
theorem test_decode_hi_lo :
    decode 0b00000000000000000111000000010000#32 = .ok (.mfhi 14) ∧
      decode 0b00000001110000000000000000010001#32 = .ok (.mthi 14) ∧
      decode 0b00000000000000000111000000010010#32 = .ok (.mflo 14) ∧
      decode 0b00000001110000000000000000010011#32 = .ok (.mtlo 14) ∧
      decode 0b00000001110101100000000000011000#32 = .ok (.mult 14 22) ∧
      decode 0b00000001110101100000000000011001#32 = .ok (.multu 14 22) ∧
      decode 0b00000001110101100000000000011010#32 = .ok (.div 14 22) ∧
      decode 0b00000001110101100000000000011011#32 = .ok (.divu 14 22) := by
  decide

/-- R214: the three-register instructions. -/
theorem test_decode_three_register :
    decode 0b00000001110101100010000000100000#32 = .ok (.add 14 22 4) ∧
      decode 0b00000001110101100010000000100001#32 = .ok (.addu 14 22 4) ∧
      decode 0b00000001110101100010000000100010#32 = .ok (.sub 14 22 4) ∧
      decode 0b00000001110101100010000000100011#32 = .ok (.subu 14 22 4) ∧
      decode 0b00000001110101100010000000100100#32 = .ok (.and 14 22 4) ∧
      decode 0b00000001110101100010000000100101#32 = .ok (.or 14 22 4) ∧
      decode 0b00000001110101100010000000100110#32 = .ok (.xor 14 22 4) ∧
      decode 0b00000001110101100010000000100111#32 = .ok (.nor 14 22 4) ∧
      decode 0b00000001110101100010000000101010#32 = .ok (.slt 14 22 4) ∧
      decode 0b00000001110101100010000000101011#32 = .ok (.sltu 14 22 4) := by
  decide

/-- R213, R215: branches and jumps. -/
theorem test_decode_transfers :
    decode 0b00000101110000001000000000000001#32 = .ok (.bltz 14 0x8001#16) ∧
      decode 0b00000101110000011000000000000001#32 = .ok (.bgez 14 0x8001#16) ∧
      decode 0b00000101110100001000000000000001#32 = .ok (.bltzal 14 0x8001#16) ∧
      decode 0b00000101110100011000000000000001#32 = .ok (.bgezal 14 0x8001#16) ∧
      decode 0b00001010000000000000000000000001#32 = .ok (.j 0x2000001#26) ∧
      decode 0b00001110000000000000000000000001#32 = .ok (.jal 0x2000001#26) ∧
      decode 0b00010001110101101000000000000001#32 = .ok (.beq 14 22 0x8001#16) ∧
      decode 0b00010101110101101000000000000001#32 = .ok (.bne 14 22 0x8001#16) ∧
      decode 0b00011001110000001000000000000001#32 = .ok (.blez 14 0x8001#16) ∧
      decode 0b00011101110000001000000000000001#32 = .ok (.bgtz 14 0x8001#16) := by
  decide

/-- R213: immediates. -/
theorem test_decode_immediates :
    decode 0b00100001110101101000000000000001#32 = .ok (.addi 14 22 0x8001#16) ∧
      decode 0b00100101110101101000000000000001#32 = .ok (.addiu 14 22 0x8001#16) ∧
      decode 0b00101001110101101000000000000001#32 = .ok (.slti 14 22 0x8001#16) ∧
      decode 0b00101101110101101000000000000001#32 = .ok (.sltiu 14 22 0x8001#16) ∧
      decode 0b00110001110101101000000000000001#32 = .ok (.andi 14 22 0x8001#16) ∧
      decode 0b00110101110101101000000000000001#32 = .ok (.ori 14 22 0x8001#16) ∧
      decode 0b00111001110101101000000000000001#32 = .ok (.xori 14 22 0x8001#16) ∧
      decode 0b00111100000101101000000000000001#32 = .ok (.lui 22 0x8001#16) := by
  decide

/-- R213: loads, stores, CACHE. -/
theorem test_decode_memory :
    decode 0b10000001110101101000000000000001#32 = .ok (.lb 14 22 0x8001#16) ∧
      decode 0b10000101110101101000000000000001#32 = .ok (.lh 14 22 0x8001#16) ∧
      decode 0b10001001110101101000000000000001#32 = .ok (.lwl 14 22 0x8001#16) ∧
      decode 0b10001101110101101000000000000001#32 = .ok (.lw 14 22 0x8001#16) ∧
      decode 0b10010001110101101000000000000001#32 = .ok (.lbu 14 22 0x8001#16) ∧
      decode 0b10010101110101101000000000000001#32 = .ok (.lhu 14 22 0x8001#16) ∧
      decode 0b10011001110101101000000000000001#32 = .ok (.lwr 14 22 0x8001#16) ∧
      decode 0b10100001110101101000000000000001#32 = .ok (.sb 14 22 0x8001#16) ∧
      decode 0b10100101110101101000000000000001#32 = .ok (.sh 14 22 0x8001#16) ∧
      decode 0b10101001110101101000000000000001#32 = .ok (.swl 14 22 0x8001#16) ∧
      decode 0b10101101110101101000000000000001#32 = .ok (.sw 14 22 0x8001#16) ∧
      decode 0b10111001110101101000000000000001#32 = .ok (.swr 14 22 0x8001#16) ∧
      decode 0b10111101110110011000000000000001#32 = .ok (.cache 14 0x19 0x8001#16) := by
  decide

/-- R216: coprocessor 0. -/
theorem test_decode_cop0 :
    decode 0b01000000000101100110000000000000#32 = .ok (.mfc0 22 12) ∧
      decode 0b01000000100101100110000000000000#32 = .ok (.mtc0 22 12) ∧
      decode 0b01000010000000000000000000000001#32 = .ok .tlbr ∧
      decode 0b01000010000000000000000000000010#32 = .ok .tlbwi ∧
      decode 0b01000010000000000000000000000110#32 = .ok .tlbwr ∧
      decode 0b01000010000000000000000000001000#32 = .ok .tlbp ∧
      decode 0b01000010000000000000000000010000#32 = .ok .rfe := by
  decide

/-- R213: coprocessors 1 to 3. -/
theorem test_decode_coprocessors :
    decode 0b01000110000000000000000000000001#32 = .ok (.cop1 0x2000001#26) ∧
      decode 0b01001010000000000000000000000001#32 = .ok (.cop2 0x2000001#26) ∧
      decode 0b01001110000000000000000000000001#32 = .ok (.cop3 0x2000001#26) ∧
      decode 0b11000101110101101000000000000001#32 = .ok (.lwc1 14 22 0x8001#16) ∧
      decode 0b11001001110101101000000000000001#32 = .ok (.lwc2 14 22 0x8001#16) ∧
      decode 0b11001101110101101000000000000001#32 = .ok (.lwc3 14 22 0x8001#16) ∧
      decode 0b11100101110101101000000000000001#32 = .ok (.swc1 14 22 0x8001#16) ∧
      decode 0b11101001110101101000000000000001#32 = .ok (.swc2 14 22 0x8001#16) ∧
      decode 0b11101101110101101000000000000001#32 = .ok (.swc3 14 22 0x8001#16) := by
  decide

/-- R218, spec/95_test_vectors.md section 2.4: words that are no instruction. -/
theorem test_decode_reserved :
    decode 0x00000001#32 = .error .funct ∧ decode 0x7C000000#32 = .error .opcode ∧ decode 0x04020000#32 = .error .regimm ∧
      decode 0xC0000000#32 = .error .opcode ∧ decode 0x42000000#32 = .error .cop0 ∧ decode 0x40400000#32 = .error .cop0 := by
  decide

/-- R112, R200: the first four bytes in either byte order, and no fewer. -/
theorem test_decode_bytes :
    decodeBytes .big [0x00#8, 0xA6#8, 0x18#8, 0x21#8, 0xFF#8] = .ok (.addu 5 6 3, [0xFF#8]) ∧
      decodeBytes .little [0x21#8, 0x18#8, 0xA6#8, 0x00#8] = .ok (.addu 5 6 3, []) ∧
      decodeBytes .big [0x00#8, 0xA6#8, 0x18#8] = .error .truncated ∧ decodeTableWord 32 0x00A61821 = some (.addu 5 6 3) := by
  decide

/-! ### Results: the rules' examples and spec/95_test_vectors.md section 2 -/

/-- R301, R302, spec/95_test_vectors.md section 2.1: a carry out is no overflow; a write to r0 still raises. -/
theorem test_add :
    gpr (after (.add 1 2 3) (withRegs [(1, 0xFFFFFFFF#32), (2, 1#32)] State.reset)) 3 = some 0#32 ∧
      taken (after (.add 1 2 0) (withRegs [(1, 0x7FFFFFFF#32), (2, 1#32)] State.reset)) = some (12#5, 0xBFC00000#32, 0xBFC00180#32) := by
  decide

/-- R303, R307. -/
theorem test_addu_addiu :
    gpr (after (.addu 5 5 5) (withRegs [(5, 0x40000001#32)] State.reset)) 5 = some 0x80000002#32 ∧
      gpr (after (.addiu 1 3 0x8000#16) (withRegs [(1, 0xFFFFFFFF#32)] State.reset)) 3 = some 0xFFFF7FFF#32 := by
  decide

/-- R304. -/
theorem test_sub :
    gpr (after (.sub 1 2 3) (withRegs [(1, 0xFFFFFFFF#32), (2, 0x7FFFFFFF#32)] State.reset)) 3 = some 0x80000000#32 ∧
      taken (after (.sub 0 2 3) (withRegs [(2, 0x80000000#32)] State.reset)) = some (12#5, 0xBFC00000#32, 0xBFC00180#32) := by
  decide

/-- R305. -/
theorem test_subu :
    gpr (after (.subu 0 2 3) (withRegs [(2, 1#32)] State.reset)) 3 = some 0xFFFFFFFF#32 := by
  decide

/-- R306. -/
theorem test_addi :
    gpr (after (.addi 1 3 0xFFFF#16) (withRegs [(1, 5#32)] State.reset)) 3 = some 4#32 ∧
      taken (after (.addi 1 3 0xFFFF#16) (withRegs [(1, 0x80000000#32)] State.reset)) = some (12#5, 0xBFC00000#32, 0xBFC00180#32) := by
  decide

/-- R308. -/
theorem test_slt :
    gpr (after (.slt 1 2 3) (withRegs [(1, 0xFFFFFFFF#32), (2, 1#32)] State.reset)) 3 = some 1#32 := by
  decide

/-- R309. -/
theorem test_sltu :
    gpr (after (.sltu 1 2 3) (withRegs [(1, 0xFFFFFFFF#32), (2, 1#32)] State.reset)) 3 = some 0#32 := by
  decide

/-- R310. -/
theorem test_slti :
    gpr (after (.slti 1 3 0x8001#16) (withRegs [(1, 0xFFFF8000#32)] State.reset)) 3 = some 1#32 ∧
      gpr (after (.slti 0 3 0xFFFF#16) (withRegs [] State.reset)) 3 = some 0#32 := by
  decide

/-- R311. -/
theorem test_sltiu :
    gpr (after (.sltiu 1 3 0x8000#16) (withRegs [(1, 0x00008000#32)] State.reset)) 3 = some 1#32 ∧
      gpr (after (.sltiu 1 3 0xFFFF#16) (withRegs [(1, 0xFFFFFFFF#32)] State.reset)) 3 = some 0#32 := by
  decide

/-- R312 to R315. -/
theorem test_logic :
    gpr (after (.and 1 2 3) (withRegs [(1, 0xF0F0F0F0#32), (2, 0x0FF00FF0#32)] State.reset)) 3 = some 0x00F000F0#32 ∧
      gpr (after (.or 1 2 3) (withRegs [(1, 0xF0F0F0F0#32), (2, 0x0FF00FF0#32)] State.reset)) 3 = some 0xFFF0FFF0#32 ∧
      gpr (after (.xor 1 2 3) (withRegs [(1, 0xF0F0F0F0#32), (2, 0x0FF00FF0#32)] State.reset)) 3 = some 0xFF00FF00#32 ∧
      gpr (after (.nor 1 2 3) (withRegs [(1, 0xF0F0F0F0#32), (2, 0x0FF00FF0#32)] State.reset)) 3 = some 0x000F000F#32 := by
  decide

/-- R316 to R319. -/
theorem test_logic_immediate :
    gpr (after (.andi 1 3 0x8001#16) (withRegs [(1, 0xFFFFFFFF#32)] State.reset)) 3 = some 0x00008001#32 ∧
      gpr (after (.ori 1 3 0x8678#16) (withRegs [(1, 0x12340000#32)] State.reset)) 3 = some 0x12348678#32 ∧
      gpr (after (.xori 1 3 0x00FF#16) (withRegs [(1, 0xFFFFFFFF#32)] State.reset)) 3 = some 0xFFFFFF00#32 ∧
      gpr (after (.lui 3 0x8001#16) (withRegs [] State.reset)) 3 = some 0x80010000#32 := by
  decide

/-- R320 to R322. -/
theorem test_shifts :
    gpr (after (.sll 2 3 31) (withRegs [(2, 1#32)] State.reset)) 3 = some 0x80000000#32 ∧
      gpr (after (.srl 2 3 4) (withRegs [(2, 0x80000000#32)] State.reset)) 3 = some 0x08000000#32 ∧
      gpr (after (.sra 2 3 4) (withRegs [(2, 0x80000000#32)] State.reset)) 3 = some 0xF8000000#32 := by
  decide

/-- R323 to R325. -/
theorem test_variable_shifts :
    gpr (after (.sllv 1 2 3) (withRegs [(1, 0x21#32), (2, 3#32)] State.reset)) 3 = some 6#32 ∧
      gpr (after (.srlv 1 2 3) (withRegs [(1, 0x1C#32), (2, 0xF0000000#32)] State.reset)) 3 = some 0xF#32 ∧
      gpr (after (.srav 1 2 3) (withRegs [(1, 0xFFFFFFFF#32), (2, 0x80000000#32)] State.reset)) 3 = some 0xFFFFFFFF#32 := by
  decide

/-- R326, R327. -/
theorem test_multiply :
    hiLo (after (.mult 1 2) (withRegs [(1, 0x7FFFFFFF#32), (2, 0xFFFFFFFE#32)] State.reset)) = some (0xFFFFFFFF#32, 2#32) ∧
      hiLo (after (.multu 1 2) (withRegs [(1, 0xFFFFFFFF#32), (2, 0xFFFFFFFF#32)] State.reset)) = some (0xFFFFFFFE#32, 1#32) := by
  decide

/-- R328, R329. -/
theorem test_divide :
    hiLo (after (.div 1 2) (withRegs [(1, 7#32), (2, 0xFFFFFFFE#32)] State.reset)) = some (1#32, 0xFFFFFFFD#32) ∧
      hiLo (after (.div 1 2) (withRegs [(1, 0xFFFFFFF9#32), (2, 2#32)] State.reset)) = some (0xFFFFFFFF#32, 0xFFFFFFFD#32) ∧
      hiLo (after (.divu 1 2) (withRegs [(1, 0xFFFFFFF9#32), (2, 2#32)] State.reset)) = some (1#32, 0x7FFFFFFC#32) := by
  decide

/-- R330 to R333. -/
theorem test_hi_lo_moves :
    gpr (after (.mfhi 5) { State.reset with hi := 0x12345678#32, lo := 3#32 }) 5 = some 0x12345678#32 ∧
      gpr (after (.mflo 5) { State.reset with hi := 0x12345678#32, lo := 3#32 }) 5 = some 3#32 ∧
      hiLo (after (.mthi 1) (withRegs [(1, 0x12345678#32)] State.reset)) = some (0x12345678#32, 0x100#32) ∧
      hiLo (after (.mtlo 0) (withRegs [] State.reset)) = some (0x100#32, 0#32) := by
  decide

/-- R356 to R361, spec/95_test_vectors.md section 2.2. -/
theorem test_branches_taken :
    pcOf (after (.beq 1 2 0xFFFF#16) (withRegs [] State.reset) 0x80000100#32) = some 0x80000100#32 ∧
      pcOf (after (.bne 1 2 0#16) (withRegs [(1, 1#32)] State.reset) 0x80000100#32) = some 0x80000104#32 ∧
      pcOf (after (.blez 1 2#16) (withRegs [(1, 0x80000000#32)] State.reset) 0x80000100#32) = some 0x8000010C#32 ∧
      pcOf (after (.bgtz 1 2#16) (withRegs [(1, 1#32)] State.reset) 0x80000100#32) = some 0x8000010C#32 ∧
      pcOf (after (.bltz 1 2#16) (withRegs [(1, 0x80000000#32)] State.reset) 0x80000100#32) = some 0x8000010C#32 ∧
      pcOf (after (.bgez 1 0x8000#16) (withRegs [(1, 0#32)] State.reset) 0x80020000#32) = some 0x80000004#32 := by
  decide

/-- R356 to R361: the fetch register stays. -/
theorem test_branches_not_taken :
    pcOf (after (.beq 1 2 0xFFFF#16) (withRegs [(1, 1#32)] State.reset) 0x80000100#32) = some 0xBFC00000#32 ∧
      pcOf (after (.bne 1 2 5#16) (withRegs [] State.reset) 0x80000100#32) = some 0xBFC00000#32 ∧
      pcOf (after (.blez 1 2#16) (withRegs [(1, 1#32)] State.reset) 0x80000100#32) = some 0xBFC00000#32 ∧
      pcOf (after (.bgtz 1 2#16) (withRegs [(1, 0x80000000#32)] State.reset) 0x80000100#32) = some 0xBFC00000#32 ∧
      pcOf (after (.bltz 1 2#16) (withRegs [(1, 0#32)] State.reset) 0x80000100#32) = some 0xBFC00000#32 ∧
      pcOf (after (.bgez 1 2#16) (withRegs [(1, 0xFFFFFFFF#32)] State.reset) 0x80000100#32) = some 0xBFC00000#32 := by
  decide

/-- R362, R363. -/
theorem test_linking_branches :
    pcOf (after (.bltzal 1 4#16) (withRegs [(1, 0xFFFFFFFF#32)] State.reset) 0x80000100#32) = some 0x80000114#32 ∧
      gpr (after (.bltzal 1 4#16) (withRegs [(1, 0xFFFFFFFF#32)] State.reset) 0x80000100#32) 31 = some 0x80000108#32 ∧
      pcOf (after (.bltzal 1 4#16) (withRegs [(1, 1#32)] State.reset) 0x80000100#32) = some 0xBFC00000#32 ∧
      gpr (after (.bltzal 1 4#16) (withRegs [(1, 1#32)] State.reset) 0x80000100#32) 31 = some 0x80000108#32 ∧
      pcOf (after (.bgezal 31 1#16) (withRegs [(31, 0#32)] State.reset) 0x80000100#32) = some 0x80000108#32 ∧
      gpr (after (.bgezal 31 1#16) (withRegs [(31, 0#32)] State.reset) 0x80000100#32) 31 = some 0x80000108#32 := by
  decide

/-- R364 to R367. -/
theorem test_jumps :
    pcOf (after (.j 0x0000040#26) (withRegs [] State.reset) 0x8FFFFFFC#32) = some 0x90000100#32 ∧
      pcOf (after (.jal 0x3FFFFFF#26) (withRegs [] State.reset) 0x80000000#32) = some 0x8FFFFFFC#32 ∧
      gpr (after (.jal 0x3FFFFFF#26) (withRegs [] State.reset) 0x80000000#32) 31 = some 0x80000008#32 ∧
      pcOf (after (.jr 5) (withRegs [(5, 0x80000002#32)] State.reset) 0x80000100#32) = some 0x80000002#32 ∧
      pcOf (after (.jalr 5 5) (withRegs [(5, 0x80000400#32)] State.reset) 0x80000300#32) = some 0x80000400#32 ∧
      gpr (after (.jalr 5 5) (withRegs [(5, 0x80000400#32)] State.reset) 0x80000300#32) 5 = some 0x80000308#32 := by
  decide

/-- R383, R384, spec/95_test_vectors.md section 2.3, BIG then LITTLE. -/
theorem test_byte_loads :
    gpr (after (.lb 1 3 7#16) (loaded State.reset)) 3 = some 0xFFFFFF88#32 ∧
      gpr (after (.lb 1 3 7#16) (loaded littleReset)) 3 = some 0xFFFFFF88#32 ∧
      gpr (after (.lbu 1 3 7#16) (loaded State.reset)) 3 = some 0x88#32 ∧
      gpr (after (.lbu 1 3 7#16) (loaded littleReset)) 3 = some 0x88#32 := by
  decide

/-- R385, R386. -/
theorem test_half_loads :
    gpr (after (.lh 1 3 6#16) (loaded State.reset)) 3 = some 0x00007788#32 ∧
      gpr (after (.lh 1 3 6#16) (loaded littleReset)) 3 = some 0xFFFF8877#32 ∧
      gpr (after (.lhu 1 3 4#16) (loaded State.reset)) 3 = some 0x00008566#32 ∧
      gpr (after (.lhu 1 3 4#16) (loaded littleReset)) 3 = some 0x00006685#32 := by
  decide

/-- R387; a misaligned one takes AdEL. -/
theorem test_word_load :
    gpr (after (.lw 1 3 4#16) (loaded State.reset)) 3 = some 0x85667788#32 ∧
      gpr (after (.lw 1 3 4#16) (loaded littleReset)) 3 = some 0x88776685#32 ∧
      taken (after (.lw 1 3 3#16) (loaded State.reset)) = some (4#5, 0xBFC00000#32, 0xBFC00180#32) ∧
      (after (.lw 1 3 3#16) (loaded State.reset)).map State.badVAddr = some 0xA0000103#32 := by
  decide

/-- R388, R390. -/
theorem test_lwl :
    gpr (after (.lwl 1 2 6#16) (loaded State.reset)) 2 = some 0x7788CCDD#32 ∧
      gpr (after (.lwl 1 2 6#16) (loaded littleReset)) 2 = some 0x776685DD#32 ∧
      gpr (after (.lwl 1 2 3#16) (loaded State.reset)) 2 = some 0x44BBCCDD#32 ∧
      gpr (after (.lwl 1 2 3#16) (loaded littleReset)) 2 = some 0x44332211#32 := by
  decide

/-- R389, R390. -/
theorem test_lwr :
    gpr (after (.lwr 1 2 6#16) (loaded State.reset)) 2 = some 0xAA856677#32 ∧
      gpr (after (.lwr 1 2 6#16) (loaded littleReset)) 2 = some 0xAABB8877#32 ∧
      gpr (after (.lwr 1 2 0#16) (loaded State.reset)) 2 = some 0xAABBCC11#32 ∧
      gpr (after (.lwr 1 2 0#16) (loaded littleReset)) 2 = some 0x44332211#32 := by
  decide

/-- R391. -/
theorem test_sb :
    bytesAt (after (.sb 1 2 3#16) (withRegs [(2, 0x000000AB#32)] (loaded State.reset))) 0x102#32 3 = some [0x33#8, 0xAB#8, 0x85#8] ∧
      bytesAt (after (.sb 1 2 3#16) (withRegs [(2, 0x000000AB#32)] (loaded littleReset))) 0x102#32 3 = some [0x33#8, 0xAB#8, 0x85#8] := by
  decide

/-- R392; a misaligned one takes AdES. -/
theorem test_sh :
    bytesAt (after (.sh 1 2 6#16) (withRegs [(2, 0x0000BEEF#32)] (loaded State.reset))) 0x105#32 3 = some [0x66#8, 0xBE#8, 0xEF#8] ∧
      bytesAt (after (.sh 1 2 6#16) (withRegs [(2, 0x0000BEEF#32)] (loaded littleReset))) 0x105#32 3 = some [0x66#8, 0xEF#8, 0xBE#8] ∧
      taken (after (.sh 1 2 5#16) (loaded State.reset)) = some (5#5, 0xBFC00000#32, 0xBFC00180#32) := by
  decide

/-- R393. -/
theorem test_sw :
    bytesAt (after (.sw 1 2 4#16) (withRegs [(2, 0xDEADBEEF#32)] (loaded State.reset))) 0x104#32 4 = some [0xDE#8, 0xAD#8, 0xBE#8, 0xEF#8] ∧
      bytesAt (after (.sw 1 2 4#16) (withRegs [(2, 0xDEADBEEF#32)] (loaded littleReset))) 0x104#32 4 = some [0xEF#8, 0xBE#8, 0xAD#8, 0xDE#8] := by
  decide

/-- R394, R396. -/
theorem test_swl :
    bytesAt (after (.swl 1 2 0#16) (withRegs [(2, 0xAABBCCDD#32)] (loaded State.reset))) 0x100#32 4 = some [0xAA#8, 0xBB#8, 0xCC#8, 0xDD#8] ∧
      bytesAt (after (.swl 1 2 0#16) (withRegs [(2, 0xAABBCCDD#32)] (loaded littleReset))) 0x100#32 4 = some [0xAA#8, 0x22#8, 0x33#8, 0x44#8] ∧
      bytesAt (after (.swl 1 2 3#16) (withRegs [(2, 0xAABBCCDD#32)] (loaded State.reset))) 0x100#32 4 = some [0x11#8, 0x22#8, 0x33#8, 0xAA#8] ∧
      bytesAt (after (.swl 1 2 3#16) (withRegs [(2, 0xAABBCCDD#32)] (loaded littleReset))) 0x100#32 4 = some [0xDD#8, 0xCC#8, 0xBB#8, 0xAA#8] := by
  decide

/-- R395, R396. -/
theorem test_swr :
    bytesAt (after (.swr 1 2 0#16) (withRegs [(2, 0xAABBCCDD#32)] (loaded State.reset))) 0x100#32 4 = some [0xDD#8, 0x22#8, 0x33#8, 0x44#8] ∧
      bytesAt (after (.swr 1 2 0#16) (withRegs [(2, 0xAABBCCDD#32)] (loaded littleReset))) 0x100#32 4 = some [0xDD#8, 0xCC#8, 0xBB#8, 0xAA#8] ∧
      bytesAt (after (.swr 1 2 3#16) (withRegs [(2, 0xAABBCCDD#32)] (loaded State.reset))) 0x100#32 4 = some [0xAA#8, 0xBB#8, 0xCC#8, 0xDD#8] ∧
      bytesAt (after (.swr 1 2 3#16) (withRegs [(2, 0xAABBCCDD#32)] (loaded littleReset))) 0x100#32 4 = some [0x11#8, 0x22#8, 0x33#8, 0xDD#8] := by
  decide

/-- R145, R146: a hit in DCACHE; the store leaves memory as it was. -/
theorem test_cached_access :
    gpr (after (.lw 1 3 0#16) (cachedState false)) 3 = some 0x11223344#32 ∧
      ((after (.sb 1 2 1#16) (cachedState false)).map fun t => (t.dcache.line Config.params.dcacheGeom 0 0).data.getD 0 0#32) = some 0x11DD3344#32 ∧
      bytesAt (after (.sb 1 2 1#16) (cachedState false)) 0x100#32 4 = some [0#8, 0#8, 0#8, 0#8] := by
  decide

/-- R160, R161, R163: a dirty line is dropped by 0x11 and written back by 0x15, a clean one dropped by 0x15, and 0x01 is a no-op. -/
theorem test_cache :
    ((after (.cache 1 0x11 0#16) (cachedState true)).map fun t => ((t.dcache.line Config.params.dcacheGeom 0 0).valid, t.stall)) = some (false, false) ∧
      ((after (.cache 1 0x15 0#16) (cachedState true)).map fun t => (t.dcache.ctrl, t.stall)) = some (.opWriteback, true) ∧
      ((after (.cache 1 0x15 0#16) (cachedState false)).map fun t => ((t.dcache.line Config.params.dcacheGeom 0 0).valid, t.stall)) = some (false, false) ∧
      ((after (.cache 1 0x01 0#16) (cachedState true)).map fun t => (t.dcache.line Config.params.dcacheGeom 0 0).valid) = some true := by
  decide

/-- spec/95_test_vectors.md section 2.3: CpU in user mode; a TLB refill of kuseg address 3. -/
theorem test_cache_traps :
    taken (after (.cache 1 0x11 0#16) user) = some (11#5, 0xBFC00000#32, 0xBFC00180#32) ∧
      taken (after (.cache 0 0x11 3#16) (mappedBy (.miss true))) = some (2#5, 0xBFC00000#32, 0xBFC00100#32) ∧
      (after (.cache 0 0x11 3#16) (mappedBy (.miss true))).map State.badVAddr = some 3#32 := by
  decide

/-- R422, R423, spec/95_test_vectors.md section 2.4. -/
theorem test_syscall_break :
    taken (after (.syscall 0#20) { State.reset with sr := 0x00400001#32 } 0x80000400#32) = some (8#5, 0x80000400#32, 0xBFC00180#32) ∧
      (after (.syscall 0#20) { State.reset with sr := 0x00400001#32 } 0x80000400#32).map State.sr = some 0x00400004#32 ∧
      taken (after (.brk 0#20) { State.reset with sr := 0x00000003#32 } 0x00400000#32) = some (9#5, 0x00400000#32, 0x80000080#32) ∧
      (after (.brk 0#20) { State.reset with sr := 0x00000003#32 } 0x00400000#32).map State.sr = some 0x0000000C#32 := by
  decide

/-- R424. -/
theorem test_rfe :
    (after .rfe { State.reset with sr := 0x0000002C#32 }).map State.sr = some 0x0000002B#32 ∧
      (after .rfe { State.reset with sr := 0x00000004#32 }).map (fun t => (t.sr, t.intShadow)) = some (0x00000001#32, true) := by
  decide

/-- R426, R53, R55, R56. -/
theorem test_mtc0 :
    (after (.mtc0 1 12) (withRegs [(1, 0x02000040#32)] State.reset)).map State.sr = some 0#32 ∧
      (after (.mtc0 1 13) (withRegs [(1, 0xFFFFFFFF#32)] State.reset)).map readCause = some 0x00000300#32 ∧
      (after (.mtc0 1 14) (withRegs [(1, 0x12345678#32)] State.reset)).map State.epc = some 0#32 := by
  decide

/-- R425: SR in user mode with CU0, and CpU without it; Cause shows the pins. -/
theorem test_mfc0 :
    gpr (after (.mfc0 2 12) userCu0) 2 = some 0x10400002#32 ∧
      taken (after (.mfc0 2 12) user) = some (11#5, 0xBFC00000#32, 0xBFC00180#32) ∧
      gpr (after (.mfc0 2 13) { State.reset with env := { pins := 0b000100#6 } }) 2 = some 0x00001000#32 := by
  decide

/-- R427, R428: the TLB instructions and registers in kernel mode, a usable coprocessor 1; CpU for an unusable one. -/
theorem test_refused :
    after (.tlbr) State.reset = none ∧
      after (.tlbwi) State.reset = none ∧
      after (.tlbwr) State.reset = none ∧
      after (.tlbp) State.reset = none ∧
      after (.mtc0 1 2) State.reset = none ∧
      after (.cop1 0#26) { State.reset with sr := 0x20400000#32 } = none ∧
      ((after (.cop1 0#26) State.reset).map fun t => (t.cause.extractLsb' 2 5, t.cause.extractLsb' 28 2)) = some (11#5, 1#2) ∧
      ((after (.lwc2 0 0 0#16) State.reset).map fun t => (t.cause.extractLsb' 2 5, t.cause.extractLsb' 28 2)) = some (11#5, 2#2) := by
  decide


/-! ### Exceptions, bus, caches (spec/95_test_vectors.md sections 1 and 2) -/

/-- What `wbStage` makes of a WB slot with these records, in user mode with BEV clear (section 2.5). -/
def entryOf (recs : List ExcRecord) : Option (BitVec 5 × Word × Word × Word) :=
  (nextOf (wbStage { State.reset with
    sr := 0x00000003#32, pipe := { wb := { pc := 0x00400100#32, bubble := false, exc := recs } } })).map
    fun t => (t.cause.extractLsb' 2 5, t.badVAddr, t.pc, t.sr)

/-- R471 to R475, section 2.5: the selected record, BadVAddr, the vector, SR. -/
theorem test_exception_priority :
    entryOf [{ kind := .addrErr, mode := .load, badVAddr := 0x00400003#32 }, { kind := .int, mode := .any }] =
        some (4#5, 0x00400003#32, 0x80000080#32, 0x0000000C#32) ∧
      entryOf [{ kind := .tlb, mode := .load, refill := true, badVAddr := 0x00001000#32 }, { kind := .dbe, mode := .load }] =
        some (2#5, 0x00001000#32, 0x80000000#32, 0x0000000C#32) ∧
      entryOf [{ kind := .ri, mode := .any }, { kind := .ov, mode := .any }] =
        some (12#5, 0#32, 0x80000080#32, 0x0000000C#32) ∧
      entryOf [{ kind := .cpu, mode := .any, cop := 1#2 }, { kind := .sys, mode := .any }] =
        some (8#5, 0#32, 0x80000080#32, 0x0000000C#32) := by
  decide

/-- Section 1, L1-3: a fetch address error beats an overflow, in either order of the records. -/
theorem test_fetch_error_beats_overflow :
    entryOf [{ kind := .addrErr, mode := .fetch, badVAddr := 0x80000202#32 }, { kind := .ov, mode := .any }] =
        some (4#5, 0x80000202#32, 0x80000080#32, 0x0000000C#32) ∧
      entryOf [{ kind := .ov, mode := .any }, { kind := .addrErr, mode := .fetch, badVAddr := 0x80000202#32 }] =
        some (4#5, 0x80000202#32, 0x80000080#32, 0x0000000C#32) := by
  decide

/-- Section 1, L1-7: the six calls of acquire_bus. -/
theorem test_bus_turnaround :
    let bus (h : Option Client) (at_ : Nat) (last : Nat) (r : Client) : State :=
      { State.reset with cycle := at_, bus := { holder := h, lastReleaseCycle := some last, lastReleaser := some r } }
    (acquireBus (bus (some .dcache) 7 3 .icache) .icache).1 = false ∧ (acquireBus (bus (some .dcache) 7 3 .icache) .dcache).1 = true ∧
      (acquireBus (bus none 10 10 .dcache) .icache).1 = false ∧ (acquireBus (bus none 10 10 .dcache) .dcache).1 = true ∧
      (acquireBus (bus none 11 10 .dcache) .icache).1 = true ∧ (acquireBus (bus none 10 9 .icache) .dcache).1 = true := by
  decide

/-- Section 2.7: the parts of an address in two geometries. -/
theorem test_geometry_parts :
    let g : Geometry := { blockSize := 16, blockCount := 4, ways := 2 }
    let h : Geometry := { blockSize := 32, blockCount := 1, ways := 4 }
    (g.offset 0x13C#32, g.wordIndex 0x13C#32, g.index 0x13C#32, g.tag 0x13C#32, g.lineBase 0x13C#32) =
        (0xC, 3, 3, 4#32, 0x130#32) ∧
      (h.offset 0x12345678#32, h.wordIndex 0x12345678#32, h.index 0x12345678#32, h.tag 0x12345678#32,
        h.lineBase 0x12345678#32) = (0x18, 6, 0, 0x091A2B3#32, 0x12345660#32) := by
  decide

/-- Section 1, L1-8: a byte merged into a cached word, and a word stored by the Mapper. -/
theorem test_round_trips :
    (cacheRead (cacheWrite (cachedState false) .dcache 0x101#32 .byte 0xAB#32) .dcache 0x100#32 .word).1 = 0x11AB3344#32 ∧
      (mapperFetch (mapperStore State.reset 0x200#32 .word 0xDEADBEEF#32 .dcache) 0x200#32 .word .dcache).1 =
        0xDEADBEEF#32 := by
  decide

/-- Section 2.6, I-1: MTC0 of Cause alone commits with its interrupt pending; I-2: an enabled pin takes the next
instruction, a masked one does not. -/
theorem test_interrupts :
    (after (.mtc0 2 13) (withRegs [(2, 0x100#32)] { State.reset with sr := 0x00400101#32 }) 0xBFC00040#32).map readCause =
        some 0x00000100#32 ∧
      taken (after (.addiu 0 3 1#16) { State.reset with sr := 0x00400101#32, cause := 0x100#32 } 0xBFC00044#32) =
        some (0#5, 0xBFC00044#32, 0xBFC00180#32) ∧
      gpr (after (.addiu 0 3 1#16) { State.reset with sr := 0x00400001#32, env := { pins := 0b000100#6 } }) 3 = some 1#32 ∧
      taken (after (.addiu 0 3 1#16) { State.reset with sr := 0x00401001#32, env := { pins := 0b000100#6 } }) =
        some (0#5, 0xBFC00000#32, 0xBFC00180#32) := by
  decide

/-- The next states of the actions of an external master, in order. -/
def masterRun (s : State) (as : List MasterAction) : Option State := nextOf (runMasters s as)

/-- R173, R113, log entry 9: a master's pattern of calls: a request is pending until its word has moved, `ready` takes one
poll, and no Mapper call is made without the token. -/
theorem test_external_master :
    ((masterRun State.reset [.acquire 2, .request 2 0x100#32 .load, .request 2 0x100#32 .load, .ready 2 0x100#32 .load]).map
        State.requests) = some [{ addr := 0x100#32, mode := .load, client := .external 2 }] ∧
      ((masterRun { State.reset with env := { polls := [false, true] } } [.acquire 2, .ready 2 0x100#32 .store]).map
        fun t => t.env.polls) = some [true] ∧
      ((masterRun State.reset [.acquire 2, .request 2 0x100#32 .store, .storeWord 2 0x100#32 0x11223344#32, .release 2]).map
        fun t => (t.requests, t.mem.readBytes 0x100#32 4, t.bus.holder)) =
          some ([], [0x11#8, 0x22#8, 0x33#8, 0x44#8], none) ∧
      (masterRun State.reset [.ready 2 0x100#32 .load]).isNone = true := by
  decide

/-- R106: Translate's answer is taken as it is. R110, log entry 16: a word it sends to a misaligned place uncached ends in
the Mapper's address error with the access's own address; a byte there is read. -/
theorem test_misaligned_translation :
    translate (mappedBy (.map 0x1003#32 true true)).cfg 0x102#32 .load = .ok 0x1105#32 true ∧
      taken (after (.lw 0 2 0x100#16) offPlace) = some (4#5, 0xBFC00000#32, 0xBFC00180#32) ∧
      (after (.lw 0 2 0x100#16) offPlace).map State.badVAddr = some 0x100#32 ∧
      taken (after (.sh 0 2 0x100#16) offPlace) = some (5#5, 0xBFC00000#32, 0xBFC00180#32) ∧
      gpr (after (.lbu 0 2 0x100#16) offPlace) 2 = some 0x44#32 ∧
      ((nextOf (step { offPlace with pc := 0x00000100#32 })).map fun t => (t.cause.extractLsb' 2 5, t.epc, t.badVAddr)) =
        some (4#5, 0x100#32, 0x100#32) := by
  decide

/-- R480, R523 item 7: `rfe` and `jr r1` behind it enter user mode at r1 though an interrupt is requested. -/
theorem test_enter_user_mode :
    ((nextOf (runPair (encode .rfe) (encode (.jr 1))
        { withRegs [(1, 0x00400000#32)] State.reset with sr := 0x0000FF0D#32, cause := 0x100#32 } 0x80000400#32)).map
      fun t => (t.pc, t.sr, t.userMode, t.intShadow)) = some (0x00400000#32, 0x0000FF03#32, true, false) := by
  decide

/-- R149, R150, R580: a dirty line of four words is in memory after five cycles of its cache; of an eviction the fill
follows. -/
theorem test_writeback :
    ((nextOf (stepsCache .dcache 5 (storing .opWriteback none))).map fun t =>
        (t.mem.readBytes 0x100#32 8, t.mem.readBytes 0x10C#32 4, t.dcache.ctrl, t.bus.holder)) =
      some ([0x11#8, 0x22#8, 0x33#8, 0x44#8, 0x55#8, 0x66#8, 0x77#8, 0x88#8], [0x99#8, 0xAA#8, 0xBB#8, 0xCC#8], .idle, none) ∧
    ((nextOf (stepsCache .dcache 5
        (storing .writeback (some { addr := 0x200#32, way := 0, index := 0, mode := .load })))).map fun t =>
        (t.dcache.ctrl, (t.dcache.line Config.params.dcacheGeom 0 0).valid,
          (t.dcache.line Config.params.dcacheGeom 0 0).dirty)) = some (.fetch, true, false) := by
  decide

/-- R143, R144: a miss whose ways are all valid evicts the one with the oldest stamp, writing back the line it holds. -/
theorem test_eviction :
    let k := (startMiss fullSet .dcache 0x208#32 .load).dcache
    (k.ctrl, k.misses, k.txn.map fun x => (x.addr, x.way, x.thenFill)) =
      (.writeback, 1, some (0x100#32, 0, some { addr := 0x200#32, way := 0, index := 0, mode := .load })) := by
  decide

/-- R580: right after reset an instruction loaded where the machine fetches leaves WB in cycle 5. -/
theorem test_first_step :
    ((nextOf (step (State.reset.withFetchWord 32 0x2408000A))).map fun t => (readGpr t 8, t.cycle)) = some (10#32, 6) := by
  decide

/-- R104, R107: a fetch from an address that is not mapped ends in IBE. -/
theorem test_fetch_bus_error :
    ((nextOf (step { State.reset with pc := 0xBFC01000#32 })).map fun t => (t.cause.extractLsb' 2 5, t.epc)) =
      some (6#5, 0xBFC01000#32) := by
  decide

/-- R491: the debugger's accessors. -/
theorem test_debugger :
    debugReadGpr (debugWriteGpr State.reset 5 7#32) 5 = 7#32 ∧ debugReadGpr (debugWriteGpr State.reset 0 7#32) 0 = 0#32 ∧
      debugReadPc (debugWritePc State.reset 0x80000000#32) = 0x80000000#32 ∧ debugPendingException State.reset = none := by
  decide

/-- R221, R222: a backward branch's field (program P1 of spec/95_test_vectors.md), a jump's, and two expansions. -/
theorem test_assembler :
    branchField 0xBFC00010#32 0xBFC00008#32 = 0xFFFD#16 ∧ jumpField 0xBFC00018#32 = 0x3F00006#26 ∧
      Pseudo.expand (.li 4 0x00018000#32) = [.lui 4 1#16, .ori 4 4 0x8000#16] ∧
      Pseudo.expand (.move 3 9) = [.addu 9 0 3] := by
  decide

/-! ### Witnesses: a state and operands that meet the hypotheses of each statement -/

/-- `s` with `i` alone, run to the end. -/
theorem runs {i : Instr} {s : State} {p : Word} (h : (after i s p).isSome = true) : ∃ t, runsTo i s p t :=
  next_of_isSome h

theorem witness_DecodeEncode :
    Instr.wellFormed (.sll 31 31 31) = true ∧ Instr.wellFormed (.cache 31 31 0xFFFF#16) = true ∧
      Instr.wellFormed (.lwc3 0 31 0#16) = true := by
  decide

/-- Each clause of the reserved words at both ends of its list. -/
theorem witness_ReservedEncodings :
    decode 0x00000000#32 = .ok (.sll 0 0 0) ∧
      opOf 0x50000000#32 = 0x14#6 ∧ opOf 0xFC000000#32 = 0x3F#6 ∧ functOf 0x00000001#32 = 0x01#6 ∧
      functOf 0x0000003F#32 = 0x3F#6 ∧ rtBits 0x04020000#32 = 0x02#5 ∧ rtBits 0x041F0000#32 = 0x1F#5 ∧
      rsBits 0x40200000#32 = 0x01#5 ∧ rsBits 0x41E00000#32 = 0x0F#5 ∧ rsBits 0x42000000#32 = 0x10#5 ∧
      functOf 0x4200003F#32 = 0x3F#6 := by
  decide

/-- A word of each clause with an ignored field set. -/
theorem witness_UnusedFieldsIgnored :
    decode (rWord 1#5 2#5 3#5 31#5 0x20#6) = .ok (.add 1 2 3) ∧ decode (rWord 31#5 2#5 3#5 4#5 0x00#6) = .ok (.sll 2 3 4) ∧
      decode (rWord 1#5 2#5 31#5 31#5 0x18#6) = .ok (.mult 1 2) ∧ decode (rWord 1#5 31#5 31#5 31#5 0x08#6) = .ok (.jr 1) ∧
      decode (rWord 1#5 31#5 2#5 31#5 0x09#6) = .ok (.jalr 1 2) ∧ decode (rWord 31#5 31#5 2#5 31#5 0x10#6) = .ok (.mfhi 2) ∧
      decode (iWord 0x06#6 1#5 31#5 4#16) = .ok (.blez 1 4#16) ∧ decode (iWord 0x0F#6 31#5 1#5 4#16) = .ok (.lui 1 4#16) := by
  decide

/-- The interrupt hypothesis, by its two ways. -/
theorem witness_noInterrupt : noInterrupt State.reset ∧ noInterrupt { State.reset with intShadow := true, sr := 0x101#32 } :=
  ⟨.inr (by decide), .inl rfl⟩

theorem witness_ThreeRegisterResults : noInterrupt (withRegs [(1, 7#32)] State.reset) := .inr (by decide)

/-- The shift amounts at both ends. -/
theorem witness_ImmediateResults : noInterrupt State.reset ∧ 0 < 32 ∧ 31 < 32 := ⟨.inr (by decide), by decide, by decide⟩

/-- The sums at the four ends of the two clauses. -/
theorem witness_TrappingAdds :
    let s := withRegs [(1, 0x7FFFFFFF#32), (2, 0x80000000#32), (3, 1#32)] State.reset
    noInterrupt s ∧ (readGpr s 1).toInt + (readGpr s 0).toInt < 2 ^ 31 ∧
      2 ^ 31 ≤ (readGpr s 1).toInt + (readGpr s 3).toInt ∧ -2 ^ 31 ≤ (readGpr s 2).toInt + (readGpr s 0).toInt ∧
      (readGpr s 2).toInt - (readGpr s 3).toInt < -2 ^ 31 :=
  ⟨.inr (by decide), by decide, by decide, by decide, by decide⟩

theorem witness_DivideResults :
    readGpr State.reset 2 ≠ 0#32 ∧ ¬(readGpr State.reset 1 = 0x80000000#32 ∧ readGpr State.reset 2 = 0xFFFFFFFF#32) := by
  decide

/-- Each corner. -/
theorem witness_DivideUndefined :
    let s := withRegs [(1, 0x80000000#32), (2, 0xFFFFFFFF#32)] State.reset
    readGpr s 0 = 0#32 ∧ readGpr s 1 = 0x80000000#32 ∧ readGpr s 2 = 0xFFFFFFFF#32 := by
  decide

theorem witness_HiLoMoves : noInterrupt State.reset := .inr (by decide)

/-- Branch conditions at zero and on both sides of it. -/
theorem witness_ConditionalBranches :
    let s := withRegs [(1, 0xFFFFFFFF#32), (2, 1#32)] State.reset
    noInterrupt s ∧ (readGpr s 1).toInt < 0 ∧ (readGpr s 0).toInt = 0 ∧ 0 < (readGpr s 2).toInt :=
  ⟨.inr (by decide), by decide, by decide, by decide⟩

theorem witness_LinkingBranches : noInterrupt State.reset := .inr (by decide)

theorem witness_Jumps : noInterrupt State.reset := .inr (by decide)

/-- The guard true, and false by a record in MEM. -/
theorem witness_TakenTransferSquashes :
    let s : State := { State.reset with active := .execute }
    s.active = .execute ∧ exGuard s = true ∧
      exGuard (s.setMem { bubble := false, exc := [{ kind := .ov, mode := .any }] }) = false := by
  decide

/-- The ends of the four segments, each answer of Translate, and an address that is not mapped. -/
theorem witness_SegmentMap :
    let at_ (v : Word) := (segmentMap State.reset v v .load).pa
    at_ 0x7FFFFFFF#32 = some 0x7FFFFFFF#32 ∧ at_ 0x80000000#32 = some 0#32 ∧ at_ 0x9FFFFFFF#32 = some 0x1FFFFFFF#32 ∧
      at_ 0xA0000000#32 = some 0#32 ∧ at_ 0xBFFFFFFF#32 = some 0x1FFFFFFF#32 ∧ at_ 0xC0000000#32 = some 0xC0000000#32 ∧
      translate (mappedBy (.miss true)).cfg 3#32 .load = .tlbFault true ∧
      translate (mappedBy (.miss true)).cfg 0xC0000000#32 .load = .tlbFault false ∧
      translate (mappedBy (.map 0#32 false false)).cfg 3#32 .store = .modFault ∧
      mapped Config.params 0x0000FFFF#32 = true ∧ mapped Config.params 0x00010000#32 = false := by
  decide

/-- Misaligned addresses, and user mode at both ends of its forbidden half, with and without coprocessor 0. -/
theorem witness_AddressErrorTraps :
    (readGpr State.reset 1 + (1#16).signExtend 32).toNat % 2 ≠ 0 ∧ (readGpr State.reset 1 + (2#16).signExtend 32).toNat % 4 ≠ 0 ∧
      user.userMode = true ∧ 0x80000000 ≤ (readGpr user 0 + (0xFFFF#16).signExtend 32).toNat ∧
      0x80000000 ≤ (readGpr (withRegs [(1, 0x80000000#32)] userCu0) 1 + (0#16).signExtend 32).toNat ∧
      userCu0.copUsable 0#2 = true := by
  decide

/-- Each fault, for a load at a mapped segment, for a store, and for the bytes of SWL and SWR. -/
theorem witness_TranslationTraps :
    State.reset.userMode = false ∧ (readGpr user 1 + (0#16).signExtend 32).toNat < 0x80000000 ∧
      aligned 0x100#32 .word = true ∧
      translate (mappedBy (.miss true)).cfg 0x100#32 .load = .tlbFault true ∧
      translate (mappedBy (.map 0#32 false false)).cfg 0x100#32 .store = .modFault ∧
      (∀ k < 4, translate (mappedBy (.miss false)).cfg (0x100#32 + BitVec.ofNat 32 k) .store = .tlbFault false) ∧
      (segmentMap State.reset 0xA0020000#32 0xA0020000#32 .load).pa = some 0x20000#32 ∧
      mapped State.reset.cfg 0x20000#32 = false ∧ noInterrupt offPlace ∧ reaches offPlace 0x100#32 .load 0x103#32 false ∧
      aligned 0x103#32 .word = false ∧ reaches offPlace 0x100#32 .store 0x103#32 false ∧
      copAllowed (mappedBy (.miss true)) 0#2 = true ∧ readGpr (mappedBy (.miss true)) 0 + (3#16).signExtend 32 = 3#32 ∧
      translate (mappedBy (.miss true)).cfg 3#32 .load = .tlbFault true := by
  unfold noInterrupt reaches
  decide

/-- A word at the last place of RAM and one at the first of the boot memory. -/
theorem witness_UncachedLoads :
    let s := withRegs [(1, 0xA000FFFC#32), (2, 0xBFC00000#32)] State.reset
    noInterrupt s ∧ reaches s (readGpr s 1 + (0#16).signExtend 32) .load 0xFFFC#32 false ∧
      reaches s (readGpr s 2 + (0#16).signExtend 32) .load 0x1FC00000#32 false ∧ isDevice s.cfg 0xFFFC#32 = false ∧
      aligned (readGpr s 1 + (0#16).signExtend 32) .word = true ∧ aligned 0xFFFC#32 .word = true := by
  refine ⟨.inr (by decide), ?_, ?_, by decide, by decide, by decide⟩ <;> unfold reaches <;> decide

/-- Every byte number in either byte order. -/
theorem witness_UncachedMergeLoads :
    ∀ s ∈ [loaded State.reset, loaded littleReset], noInterrupt s ∧ isDevice s.cfg 0x100#32 = false ∧
      aligned 0x100#32 .word = true ∧
      ∀ o ∈ [(0#16, 0), (1#16, 1), (2#16, 2), (3#16, 3)], (readGpr s 1 + o.1.signExtend 32).toNat % 4 = o.2 ∧
        reaches s ((readGpr s 1 + o.1.signExtend 32) &&& 0xFFFFFFFC#32) .load 0x100#32 false := by
  unfold noInterrupt reaches
  decide

/-- A word, and the four bytes of SWL and SWR, at a device; and bytes in memory. -/
theorem witness_DeviceAccesses :
    let ea := readGpr deviceState 1 + (3#16).signExtend 32
    noInterrupt deviceState ∧ isDevice deviceState.cfg 0x1F000000#32 = true ∧
      reaches deviceState (readGpr deviceState 1 + (0#16).signExtend 32) .load 0x1F000000#32 false ∧
      reaches deviceState (readGpr deviceState 1 + (0#16).signExtend 32) .store 0x1F000000#32 false ∧
      aligned (readGpr deviceState 1 + (0#16).signExtend 32) .word = true ∧
      reaches deviceState (ea &&& 0xFFFFFFFC#32) .load 0x1F000000#32 false ∧ aligned (ea &&& 0xFFFFFFFC#32) .word = true ∧
      (∀ k < 4, reaches deviceState ((ea &&& 0xFFFFFFFC#32) + BitVec.ofNat 32 k) .store
        (0x1F000000#32 + BitVec.ofNat 32 k) false) ∧ aligned 0x1F000000#32 .word = true ∧ isDevice deviceState.cfg 0x100#32 = false := by
  unfold noInterrupt reaches
  decide

theorem witness_UncachedStores :
    let s := withRegs [(1, 0xA000FFFC#32)] State.reset
    noInterrupt s ∧ reaches s (readGpr s 1 + (0#16).signExtend 32) .store 0xFFFC#32 false ∧ isDevice s.cfg 0xFFFC#32 = false ∧
      aligned 0xFFFC#32 .word = true ∧ aligned (readGpr s 1 + (0#16).signExtend 32) .word = true := by
  unfold noInterrupt reaches
  decide

/-- Every byte number in either byte order, the four bytes in memory. -/
theorem witness_UncachedMergeStores :
    ∀ s ∈ [loaded State.reset, loaded littleReset], noInterrupt s ∧
      ∀ o ∈ [(0#16, 0), (1#16, 1), (2#16, 2), (3#16, 3)], (readGpr s 1 + o.1.signExtend 32).toNat % 4 = o.2 ∧
        ∀ k < 4, reaches s (((readGpr s 1 + o.1.signExtend 32) &&& 0xFFFFFFFC#32) + BitVec.ofNat 32 k) .store
            (0x100#32 + BitVec.ofNat 32 k) false ∧ isDevice s.cfg (0x100#32 + BitVec.ofNat 32 k) = false := by
  unfold noInterrupt reaches
  decide

/-- The line of physical 0x100 in DCACHE behind a Translate that moves every address up by three, cached. -/
def offCached : State := { cachedState false with cfg := (mappedBy (.map 3#32 true true)).cfg }

theorem witness_CachedLoads :
    let s := cachedState false
    noInterrupt s ∧ s.dcache.ctrl = .idle ∧ lookup s .dcache 0x100#32 = some 0 ∧
      reaches s (readGpr s 1 + (0#16).signExtend 32) .load 0x100#32 true ∧
      reaches s ((readGpr s 1 + (3#16).signExtend 32) &&& 0xFFFFFFFC#32) .load 0x100#32 true ∧
      offCached.dcache.ctrl = .idle ∧ lookup offCached .dcache 0x103#32 = some 0 ∧
      reaches offCached 0x100#32 .load 0x103#32 true ∧ reaches offCached 0x100#32 .store 0x103#32 true ∧
      aligned 0x103#32 .word = false ∧
      aligned (readGpr s 1 + (0#16).signExtend 32) .word = true := by
  unfold noInterrupt reaches
  decide

theorem witness_CachedStores :
    let s := cachedState false
    noInterrupt s ∧ s.dcache.ctrl = .idle ∧ lookup s .dcache 0x100#32 = some 0 ∧
      reaches s (readGpr s 1 + (0#16).signExtend 32) .store 0x100#32 true ∧
      ∀ k < 4, reaches s (((readGpr s 1 + (3#16).signExtend 32) &&& 0xFFFFFFFC#32) + BitVec.ofNat 32 k) .store
          (0x100#32 + BitVec.ofNat 32 k) true ∧ (lookup s .dcache (0x100#32 + BitVec.ofNat 32 k)).isSome = true := by
  unfold noInterrupt reaches
  decide

/-- A miss in an IDLE cache, with an invalid and with a dirty victim, and a busy cache. -/
theorem witness_CacheMissStalls :
    let s := withRegs [(1, 0x80000100#32)] State.reset
    let busy : State := { s with dcache := { s.dcache with ctrl := .opWriteback } }
    noInterrupt s ∧ noInterrupt busy ∧ noInterrupt fullSet ∧ reaches s (readGpr s 1 + (0#16).signExtend 32) .load 0x100#32 true ∧
      lookup s .dcache 0x100#32 = none ∧ busy.dcache.ctrl ≠ .idle ∧
      reaches fullSet (readGpr fullSet 1 + (0x100#16).signExtend 32) .load 0x200#32 true ∧
      lookup fullSet .dcache 0x200#32 = none ∧ (fullSet.dcache.line Config.params.dcacheGeom 0 0).dirty = true ∧
      ∀ k < 4, reaches s (((readGpr s 1 + (0#16).signExtend 32) &&& 0xFFFFFFFC#32) + BitVec.ofNat 32 k) .store
          (0x100#32 + BitVec.ofNat 32 k) true ∧ lookup s .dcache (0x100#32 + BitVec.ofNat 32 k) = none := by
  unfold noInterrupt reaches
  decide

/-- A no-op value, an absent cache, and an IDLE cache without the line. -/
theorem witness_CacheNoOps :
    let s := withRegs [(1, 0x80000100#32)] State.reset
    noInterrupt s ∧ copAllowed s 0#2 = true ∧
      addressTranslateUnchecked s (readGpr s 1 + (0#16).signExtend 32) .load =
        { pa := some 0x100#32, cacheable := true, recs := [] } ∧
      (0x1F ∉ [0x10, 0x11, 0x15, 0x19]) ∧ lookup s .icache 0x100#32 = none ∧ lookup s .dcache 0x100#32 = none ∧
      s.icache.ctrl = .idle ∧ s.dcache.ctrl = .idle ∧
      Params.icachePresent { Config.params with icachePresent := false } = false := by
  unfold noInterrupt
  decide

/-- The line held by either cache, clean and dirty; an issued operation, its cache busy and IDLE. -/
theorem witness_CacheHits :
    let s := cachedState true
    let i : State := { cachedState false with icache := (cachedState false).dcache }
    let issued := s.setMem { bubble := false, memIssued := true }
    let busy : State := { issued with dcache := { issued.dcache with ctrl := .opWriteback } }
    noInterrupt s ∧ copAllowed s 0#2 = true ∧
      addressTranslateUnchecked s (readGpr s 1 + (0#16).signExtend 32) .load =
        { pa := some 0x100#32, cacheable := true, recs := [] } ∧
      s.cfg.present .dcache = true ∧ (s.cache .dcache).ctrl = .idle ∧ lookup s .dcache 0x100#32 = some 0 ∧
      (s.dcache.line Config.params.dcacheGeom 0 0).dirty = true ∧
      (i.dcache.line Config.params.dcacheGeom 0 0).dirty = false ∧ lookup i .icache 0x100#32 = some 0 ∧
      issued.pipe.mem.memIssued = true ∧ (issued.cache .dcache).ctrl = .idle ∧ (busy.cache .dcache).ctrl ≠ .idle ∧
      issued.pipe.mem.exc = [] ∧ issued.pipe.mem.dest = .none ∧ noInterrupt busy ∧ busy.cfg.present .dcache = true ∧
      addressTranslateUnchecked busy (readGpr busy 1 + (0#16).signExtend 32) .load =
        { pa := some 0x100#32, cacheable := true, recs := [] } := by
  unfold noInterrupt
  decide

/-- An index with an invalid way, and one whose ways are all valid. -/
theorem witness_WaySelection :
    let k := (cachedState false).dcache
    let g : Geometry := Config.params.dcacheGeom
    let one : Geometry := { g with ways := 1 }
    1 ≤ g.ways ∧ (∃ v < g.ways, ¬(k.line g v 0).valid = true) ∧ 1 ≤ one.ways ∧ (∀ v < one.ways, (k.line one v 0).valid = true) := by
  decide

/-- DCACHE about to fill the line of physical 0x100. -/
def filling : State :=
  { State.reset with
    dcache := { State.reset.dcache with
      ctrl := .fetch, txn := some (fillTxn Config.params.dcacheGeom .dcache { addr := 0x100#32, way := 1, index := 0, mode := .load }) } }

theorem witness_FillLoadsLine :
    let s := filling
    let g := s.cfg.geom .dcache
    g.wellFormed = true ∧ 1 < g.ways ∧ cacheShape g s.dcache = true ∧ s.dcache.ctrl = .fetch ∧
      s.dcache.txn = some
        { remaining := g.words, next := 0, addr := g.lineBase 0x104#32, way := 1, index := g.index 0x104#32, mode := .load,
          invalidate := false, client := .dcache, entered := false, thenFill := none } ∧
      s.bus.holder = none ∧ s.bus.lastReleaseCycle ≠ some s.cycle ∧ s.env.polls = [] ∧ s.env.quiet = true ∧
      ∀ n < g.words, mapped s.cfg (g.lineBase 0x104#32 + BitVec.ofNat 32 (4 * n)) = true ∧
        isDevice s.cfg (g.lineBase 0x104#32 + BitVec.ofNat 32 (4 * n)) = false := by
  decide

theorem witness_WritebackStoresLine :
    ∀ s ∈ [storing .opWriteback none, storing .writeback (some { addr := 0x200#32, way := 0, index := 0, mode := .load })],
      let g := s.cfg.geom .dcache
      let x := writebackTxn g .dcache 0x100#32 0 0 true
      g.wellFormed = true ∧ g.blockSize ≤ 2 ^ 32 ∧ 0 < g.ways ∧ 0 < g.blockCount ∧ cacheShape g s.dcache = true ∧
        (s.dcache.ctrl = .writeback ∨ s.dcache.ctrl = .opWriteback) ∧
        (s.dcache.txn = some (x none) ∨ s.dcache.txn = some (x (some { addr := 0x200#32, way := 0, index := 0, mode := .load }))) ∧
        (x none).remaining = g.words ∧ s.bus.holder = none ∧ s.bus.lastReleaseCycle ≠ some s.cycle ∧ s.env.polls = [] ∧
        s.env.quiet = true ∧ ∀ n < g.words, mapped s.cfg (0x100#32 + BitVec.ofNat 32 (4 * n)) = true ∧
          isDevice s.cfg (0x100#32 + BitVec.ofNat 32 (4 * n)) = false := by
  decide

/-- A client that gets the token, one that releases it, one that may not. -/
theorem witness_BusTurnaround :
    (acquireBus State.reset .icache).1 = true ∧ (∃ t, releaseBus (acquireBus State.reset .icache).2 .icache = .next t) ∧
      State.reset.bus.holder ≠ some .dcache ∧ Client.icache ≠ .dcache :=
  ⟨by decide, ⟨_, rfl⟩, by decide, by decide⟩

theorem witness_MapperRoundTrip : isDevice State.reset.cfg 0x100#32 = false ∧ isDevice deviceState.cfg 0xFFFFFFFF#32 = false := by
  decide

/-- A halfword at either place of a word, read back as bytes and as the word. -/
theorem witness_LanesMatchMemory :
    (0xFFFFFFFC#32 : Word).toNat % 4 = 0 ∧ 2 % Width.half.bytes = 0 ∧ 3 % Width.byte.bytes = 0 ∧ 0 % Width.word.bytes = 0 := by
  decide

/-- Kernel mode, and user mode with coprocessor 0. -/
theorem witness_RfePopsStatus : State.reset.userMode = false ∧ userCu0.userMode = true ∧ userCu0.copUsable 0#2 = true := by
  decide

theorem witness_Mfc0Reads :
    State.reset.userMode = false ∧ noInterrupt State.reset ∧ 3 ∉ [0, 1, 2, 4, 8, 10, 12, 13, 14, 15] ∧
      31 ∉ [0, 1, 2, 4, 8, 10, 12, 13, 14, 15] :=
  ⟨by decide, .inr (by decide), by decide, by decide⟩

theorem witness_Mtc0Writes :
    State.reset.userMode = false ∧ noInterrupt State.reset ∧ 14 ∉ [0, 1, 2, 4, 10, 12, 13] ∧ 31 ∉ [0, 1, 2, 4, 10, 12, 13] :=
  ⟨by decide, .inr (by decide), by decide, by decide⟩

theorem witness_CoprocessorUnusableTraps :
    user.userMode = true ∧ user.copUsable 0#2 = false ∧ State.reset.copUsable 1#2 = false ∧ State.reset.copUsable 2#2 = false ∧
      State.reset.copUsable 3#2 = false := by
  decide

theorem witness_RefusedForms : exGuard { State.reset with active := .execute } = true := by decide

/-- A reserved COP0 word in user mode and in kernel mode, and a word of another opcode. -/
theorem witness_ReservedInstructionTraps :
    (∃ r, decode 0x40400000#32 = .error r) ∧ opOf 0x40400000#32 = 0x10#6 ∧ user.userMode = true ∧
      user.copUsable 0#2 = false ∧ State.reset.userMode = false ∧ ∃ r, decode 0x7C000000#32 = .error r :=
  ⟨⟨_, rfl⟩, by decide, by decide, by decide, by decide, ⟨_, rfl⟩⟩

theorem witness_ExceptionEntry :
    selectRecord [{ kind := .tlb, mode := .load, badVAddr := 3#32, refill := true }, { kind := .int, mode := .any }] =
      some { kind := .tlb, mode := .load, badVAddr := 3#32, refill := true } := by
  decide

/-- An interrupt from a pin, one from software, none while it is masked; sums at the ends of the range; loads, stores and
CACHE that pass their checks. -/
theorem witness_InterruptTaken :
    let s : State :=
      { withRegs [(1, 0xA0000100#32), (2, 0x80000100#32), (3, 0x7FFFFFFF#32), (4, 0x80000000#32)] State.reset with
        sr := 0x0000FF01#32, cause := 0x200#32 }
    intCond s = true ∧ intCond { s with cause := 0#32, env := { pins := 0b100000#6 } } = true ∧
      intCond { s with sr := 0x0000FD01#32 } = false ∧ s.intShadow = false ∧
      (readGpr s 3).toInt + (readGpr s 0).toInt < 2 ^ 31 ∧ -2 ^ 31 ≤ (readGpr s 4).toInt + (readGpr s 0).toInt ∧
      copAllowed s 0#2 = true ∧ 3 ∉ [0, 1, 2, 4, 10] ∧ 11 ∉ [0, 1, 2, 4, 10, 12, 13] ∧
      (addressTranslateUnchecked s (readGpr s 2 + (0#16).signExtend 32) .load).recs = [] ∧
      reaches s (readGpr s 1 + (0#16).signExtend 32) .load 0x100#32 false ∧
      reaches s ((readGpr s 1 + (3#16).signExtend 32) &&& 0xFFFFFFFC#32) .load 0x100#32 false ∧
      reaches s (readGpr s 2 + (0#16).signExtend 32) .store 0x100#32 true ∧
      aligned (readGpr s 1 + (0#16).signExtend 32) .word = true := by
  unfold reaches
  decide

/-- The four bytes SWL and SWR may store to. -/
theorem witness_InterruptTaken_bytes :
    let s := withRegs [(1, 0xA0000100#32)] State.reset
    ∀ k < 4, ∃ q d, reaches s (((readGpr s 1 + (3#16).signExtend 32) &&& 0xFFFFFFFC#32) + BitVec.ofNat 32 k) .store q d := by
  intro s k hk
  refine ⟨0x100#32 + BitVec.ofNat 32 k, false, ?_⟩
  unfold reaches
  revert k
  decide

/-- Reset with an ADDIU at the fetch register. -/
def fetching : State := State.reset.withFetchWord 32 0x2408000A

/-- A fetch, the works of a slot, a step with an instruction in WB, and a run that has ended. -/
theorem witness_StepRunsDecoded :
    fetching.pc.toNat % 4 = 0 ∧ reaches fetching fetching.pc .fetch 0x1FC00000#32 false ∧
      isDevice fetching.cfg 0x1FC00000#32 = false ∧
      fetching.mem.readBytes 0x1FC00000#32 4 = encodeBytes fetching.cfg.endian (.addiu 0 8 10#16) ∧
      decode (encode (.addiu 0 8 10#16)) = .ok (.addiu 0 8 10#16) ∧ decode 0xC0000000#32 = .error .opcode ∧
      fetching.halted = false ∧ fetching.cfg.wellFormed = true ∧ arraysInBounds fetching = true ∧
      (fetching.setWb { bubble := false }).pipe.wb.bubble = false ∧ aligned 0x1FC00000#32 .word = true ∧
      fetching.env.tape = [] ∧ fetching.env.quiet = true := by
  unfold reaches
  decide

/-- A misaligned and an unmapped fetch, a line ICACHE holds, one it does not, a busy ICACHE; uncached memory, a device. -/
theorem witness_FetchStep :
    let s : State := { State.reset with pc := 0x80000100#32 }
    let k : State := { s with icache := (cachedState false).dcache }
    let d : State := { deviceState with pc := 0xBF000000#32 }
    (0x80000101#32 : Word).toNat % 4 ≠ 0 ∧ (addressTranslate s 0xA0020000#32 0xA0020000#32 .fetch).recs ≠ [] ∧
      s.pc.toNat % 4 = 0 ∧ reaches s s.pc .fetch 0x100#32 true ∧ lookup s .icache 0x100#32 = none ∧ s.icache.ctrl = .idle ∧
      reaches k k.pc .fetch 0x100#32 true ∧ k.icache.ctrl = .idle ∧ lookup k .icache 0x100#32 = some 0 ∧
      CtrlState.fetch ≠ .idle ∧ reaches State.reset State.reset.pc .fetch 0x1FC00000#32 false ∧
      isDevice State.reset.cfg 0x1FC00000#32 = false ∧ d.pc.toNat % 4 = 0 ∧ reaches d d.pc .fetch 0x1F000000#32 false ∧
      isDevice d.cfg 0x1F000000#32 = true ∧ reaches offPlace 0x100#32 .fetch 0x103#32 false ∧
      reaches offCached 0x100#32 .fetch 0x103#32 true ∧ aligned 0x103#32 .word = false ∧ aligned 0x100#32 .word = true := by
  unfold reaches
  decide

/-- A load in MEM whose line DCACHE does not hold. -/
def missing : State :=
  State.reset.setMem { instr := encode (.lw 1 2 0#16), bubble := false, ea := 0x80000100#32 }

theorem witness_StallHoldsPipeline :
    ∃ u v, wbPhase missing = .next u ∧ memPhase u = .next v ∧ v.stall = true := ⟨_, _, rfl, rfl, rfl⟩

/-- `addu r4, r1, r2` in ID behind a producer of r1 in EX, one of r2 in MEM and one of r3 in WB. -/
def behindThree : State :=
  { State.reset with
    pipe :=
      { dec := { instr := encode (.addu 1 2 4), bubble := false }
        ex := { instr := encode (.addu 5 6 1), bubble := false, dest := .reg 1, result := 7#32 }
        mem := { instr := encode (.addu 5 6 2), bubble := false, dest := .reg 2, result := 8#32 }
        wb := { instr := encode (.addu 5 6 3), bubble := false, dest := .reg 3, result := 9#32 } } }

/-- Producers in every stage; a load, and a load and an LWL, that pass their checks. -/
theorem witness_BackToBackForwarding :
    let s := withRegs [(1, 0xA0000100#32)] State.reset
    behindThree.pipe.dec.bubble = false ∧ decode behindThree.pipe.dec.instr = .ok (.addu 1 2 4) ∧
      behindThree.pipe.mem.exc = [] ∧
      (∃ u w x, idPhase behindThree = .next u ∧ wbPhase (advance u) = .next w ∧ memPhase w = .next x) ∧
      (decodeOut (.addu 1 2 4)).src1 = .reg 1 ∧ (decodeOut (.addu 1 2 4)).src2 = .reg 2 ∧
      (1 : Reg) ≠ 0 ∧ intCond s = false ∧ reaches s (readGpr s 1 + (0#16).signExtend 32) .load 0x100#32 false ∧
      reaches s (readGpr s 1 + (0#16).signExtend 32) .store 0x100#32 false ∧
      reaches s ((readGpr s 1 + (3#16).signExtend 32) &&& 0xFFFFFFFC#32) .load 0x100#32 false ∧
      aligned (readGpr s 1 + (0#16).signExtend 32) .word = true ∧ aligned 0x100#32 .word = true ∧
      isDevice s.cfg 0x100#32 = false := by
  refine ⟨rfl, by decide, rfl, ⟨_, _, _, rfl, rfl, rfl⟩, rfl, rfl, by decide, by decide, ?_, ?_, ?_, by decide, by decide, by decide⟩ <;>
    unfold reaches <;> decide

theorem witness_ExecAnswersNext :
    exGuard { State.reset with active := .execute } = true ∧ refusedForm (.mfc0 1 12) = false ∧ refusedForm (.mtc0 1 31) = false := by
  decide

theorem witness_RecordsBlockEffects :
    exGuard (({ State.reset with active := .execute } : State).setMem
        { bubble := false, exc := [{ kind := .ov, mode := .any }] }) = false ∧
      (missing.setMem { missing.pipe.mem with exc := [{ kind := .ov, mode := .any }] }).pipe.mem.exc ≠ [] := by
  decide

/-- An instruction at WB that writes r2, and one in EX that writes HI and LO. -/
theorem witness_RegisterWriters :
    (∃ t, exec (.addu 1 1 2) (State.reset.setWb { bubble := false, dest := .reg 2, result := 5#32 }) = .next t ∧
      readGpr t 2 ≠ readGpr State.reset 2) ∧
    ∃ t, exec (.mult 1 1) ({ State.reset with active := .execute } : State) = .next t ∧ t.hi ≠ State.reset.hi ∧
      t.lo ≠ State.reset.lo :=
  ⟨⟨_, rfl, by decide⟩, ⟨_, rfl, by decide, by decide⟩⟩

/-- MTC0 of 12 and of 13, and an entry that writes EPC and BadVAddr. -/
theorem witness_Cp0Writers :
    (∃ t, exec (.mtc0 1 12) ({ State.reset with active := .execute } : State) = .next t ∧ t.sr ≠ State.reset.sr) ∧
    (∃ t, exec (.mtc0 1 13) (({ State.reset with active := .execute } : State).setEx { opB := .immediate 0x300#32 }) = .next t ∧
      t.cause ≠ State.reset.cause) ∧
    ∃ t, exec .rfe (State.reset.setWb
        { pc := 8#32, bubble := false, exc := [{ kind := .addrErr, mode := .fetch, badVAddr := 8#32 }] }) = .next t ∧
      t.epc ≠ State.reset.epc ∧ t.badVAddr ≠ State.reset.badVAddr :=
  ⟨⟨_, rfl, by decide⟩, ⟨_, rfl, by decide⟩, ⟨_, rfl, by decide, by decide⟩⟩

/-- An instruction of user mode that commits, and one that takes an exception. -/
theorem witness_UserModeConfined :
    user.userMode = true ∧ user.copUsable 0#2 = false ∧ (∃ t, runsTo (.addu 1 2 3) user 0x400000#32 t) ∧
      ∃ t, runsTo .rfe user 0x400000#32 t :=
  ⟨by decide, by decide, runs (by decide), runs (by decide)⟩

theorem witness_EffectOrException :
    (∃ t, runsTo (.sw 0 1 0x100#16) State.reset 0x400000#32 t ∧ t.stall = false) ∧
      ∃ t, runsTo (.syscall 0#20) State.reset 0x400000#32 t ∧ t.stall = false :=
  ⟨⟨_, rfl, rfl⟩, ⟨_, rfl, rfl⟩⟩

theorem witness_FirstInstructionRuns :
    Instr.wellFormed (.mtc0 1 12) = true ∧ computes (.mtc0 1 12) = true ∧ computes (.syscall 0#20) = true ∧
      ∃ t, runsTo (.mtc0 1 12) State.reset 0xBFC00000#32 t :=
  ⟨by decide, by decide, by decide, runs (by decide)⟩

/-- Reset's line arrays have the shape of their geometry. -/
theorem witness_CachesAndBusStayConsistent : arraysInBounds State.reset = true := by decide

/-- A step from reset, where the invariants hold. -/
theorem witness_invariants :
    memoryCanonical State.reset ∧ statusLegal State.reset ∧ cachesConsistent State.reset ∧ ∃ t, step State.reset = .next t := by
  refine ⟨rfl, ⟨rfl, rfl, rfl⟩, ?_, next_of_isSome (by decide)⟩
  unfold cachesConsistent icacheClean busConsistent ctrlConsistent bubblesClean bubbleClean
  refine ⟨⟨by decide, by decide⟩, ⟨⟨by decide, by decide⟩, ⟨by decide, by decide⟩, by decide, by decide⟩, by decide⟩

end Sys2Proof.Tests
end

section
/-! O57. Every step keeps the bits of SR and Cause that read zero at zero, r0 at zero in the register file itself, and the
parameters of the run (spec/10_state.md R31, R51, R54, spec/60_exceptions.md R485).
Most parts of a cycle leave these fields as they are (`SameStatus`). Those that write one are MTC0 and RFE in EX and the
commit and the exception entry of WB; each keeps what `statusLegal` says of it (`KeepsLegal`). -/

namespace Sys2Proof.Machine

/-! ### Bits that a mask clears -/

theorem or_and_mask_eq_zero {a b m : Word} (ha : a &&& m = 0#32) (hb : b &&& m = 0#32) : (a ||| b) &&& m = 0#32 := by
  rw [BitVec.and_or_distrib_right, ha, hb, BitVec.or_zero]

theorem and_and_mask_eq_zero {a m : Word} (h : a &&& m = 0#32) (k : Word) : (a &&& k) &&& m = 0#32 := by
  rw [BitVec.and_assoc, BitVec.and_comm k m, ← BitVec.and_assoc, h, BitVec.zero_and]

theorem and_disjoint_mask_eq_zero {k m : Word} (h : k &&& m = 0#32) (a : Word) : (a &&& k) &&& m = 0#32 := by
  rw [BitVec.and_assoc, h, BitVec.and_zero]

/-! ### What the writers of SR, Cause and the register file leave there -/

/-- Entry moves the low four bits up to bits 5:2, all of them bits of SR (R51, R474). -/
theorem pushStatus_reservedZero {sr : Word} (h : sr &&& ~~~srWriteMask = 0#32) :
    pushStatus sr &&& ~~~srWriteMask = 0#32 := by
  refine or_and_mask_eq_zero (and_and_mask_eq_zero h _) ?_
  rw [BitVec.shiftLeft_and_distrib]
  exact and_disjoint_mask_eq_zero (by decide) _

/-- RFE moves bits 5:2 down to the low four bits, all of them bits of SR (R51, R424). -/
theorem popStatus_reservedZero {sr : Word} (h : sr &&& ~~~srWriteMask = 0#32) :
    popStatus sr &&& ~~~srWriteMask = 0#32 := by
  refine or_and_mask_eq_zero (and_and_mask_eq_zero h _) ?_
  rw [BitVec.ushiftRight_and_distrib]
  exact and_disjoint_mask_eq_zero (by decide) _

/-- Entry puts ExcCode in bits 6:2 and CE in bits 29:28 and clears BD (R54, R474). -/
theorem causeAtEntry_reservedZero {cause : Word} (h : cause &&& 0xCFFFFC83#32 = 0#32) (r : ExcRecord) :
    causeAtEntry cause r &&& 0xCFFFFC83#32 = 0#32 := by
  have hce : ∀ c : BitVec 2, (c.zeroExtend 32 <<< 28) &&& 0xCFFFFC83#32 = 0#32 := by decide
  have hcode : ∀ c : BitVec 5, (c.zeroExtend 32 <<< 2) &&& 0xCFFFFC83#32 = 0#32 := by decide
  exact or_and_mask_eq_zero (or_and_mask_eq_zero (and_and_mask_eq_zero h _) (hce _)) (hcode _)

/-- MTC0 of Cause replaces bits 9:8 (R55). -/
theorem causeWritten_reservedZero {cause : Word} (h : cause &&& 0xCFFFFC83#32 = 0#32) (v : Word) :
    ((cause &&& 0xFFFFFCFF#32) ||| (v &&& 0x00000300#32)) &&& 0xCFFFFC83#32 = 0#32 :=
  or_and_mask_eq_zero (and_and_mask_eq_zero h _) (and_disjoint_mask_eq_zero (by decide) v)

theorem writeGpr_get_zero (s : State) (r : Reg) (v : Word) : (writeGpr s r v).gpr.get 0 = s.gpr.get 0 := by
  unfold writeGpr
  split
  · rfl
  · rename_i hr
    have hv : r.val ≠ 0 := fun e => hr (Fin.ext e)
    simp [Vector.get_eq_getElem, hv]

theorem commit_get_zero (s : State) (x : Snapshot) : (commit s x).gpr.get 0 = s.gpr.get 0 := by
  unfold commit
  split
  · exact writeGpr_get_zero s _ _
  · rfl

/-! ### States with the same, and with legal, registers -/

/-- `t` has the parameters, the general registers, SR and Cause of `s`. -/
structure SameStatus (s t : State) : Prop where
  cfg   : t.cfg = s.cfg
  gpr   : t.gpr = s.gpr
  sr    : t.sr = s.sr
  cause : t.cause = s.cause

theorem SameStatus.refl (s : State) : SameStatus s s := ⟨rfl, rfl, rfl, rfl⟩

theorem SameStatus.trans {s t u : State} (f : SameStatus s t) (g : SameStatus t u) : SameStatus s u :=
  ⟨g.cfg.trans f.cfg, g.gpr.trans f.gpr, g.sr.trans f.sr, g.cause.trans f.cause⟩

theorem MemFrame.sameStatus {s t : State} (f : MemFrame s t) : SameStatus s t := ⟨f.cfg, f.gpr, f.sr, f.cause⟩

/-- `t` has the parameters of `s`, and legal registers if `s` has. -/
structure KeepsLegal (s t : State) : Prop where
  cfg   : t.cfg = s.cfg
  legal : statusLegal s → statusLegal t

theorem KeepsLegal.trans {s t u : State} (f : KeepsLegal s t) (g : KeepsLegal t u) : KeepsLegal s u :=
  ⟨g.cfg.trans f.cfg, fun h => g.legal (f.legal h)⟩

theorem SameStatus.keepsLegal {s t : State} (f : SameStatus s t) : KeepsLegal s t where
  cfg := f.cfg
  legal := by
    unfold statusLegal srReservedZero causeReservedZero r0Zero
    rw [f.gpr, f.sr, f.cause]
    exact id

/-- The frame of a MEM step, which says nothing of int_shadow, keeps the registers legal. -/
theorem MemFrame.keepsLegal {s t : State} {b : Bool} (f : MemFrame s { t with intShadow := b }) : KeepsLegal s t :=
  SameStatus.keepsLegal ⟨f.cfg, f.gpr, f.sr, f.cause⟩

/-! ### ID and WB -/

theorem decodeStep_sameStatus {d : DecodeOut} {recs : List ExcRecord} {s t : State} (h : decodeStep d recs s = .next t) :
    SameStatus s t := by
  cases h
  exact ⟨rfl, rfl, rfl, rfl⟩

theorem takeException_keepsLegal (s : State) (pc : Word) (r : ExcRecord) : KeepsLegal s (takeException s pc r) where
  cfg := rfl
  legal := fun ⟨hsr, hcause, h0⟩ => ⟨pushStatus_reservedZero hsr, causeAtEntry_reservedZero hcause r, h0⟩

theorem commit_keepsLegal (s : State) (x : Snapshot) : KeepsLegal s (commit s x) where
  cfg := commit_cfg s x
  legal := by
    unfold statusLegal srReservedZero causeReservedZero r0Zero
    rw [commit_sr, commit_cause, commit_get_zero]
    exact id

theorem wbStage_keepsLegal {s t : State} (h : wbStage s = .next t) : KeepsLegal s t := by
  rcases wbStage_cases s with ⟨r, -, e⟩ | ⟨-, e⟩ <;> cases e.symm.trans h
  · exact takeException_keepsLegal s _ r
  · exact commit_keepsLegal s _

/-! ### EX -/

/-- EX that has no effect but on the snapshot, or whose effect keeps the registers legal, keeps them legal. -/
theorem exStage_keepsLegal {compute : State → Snapshot → Snapshot} {effect : Snapshot → State → Out} {s t : State}
    (he : ∀ x u v, effect x u = .next v → KeepsLegal u v) (h : exStage compute effect s = .next t) : KeepsLegal s t := by
  have hx : SameStatus s (s.setEx (compute s (resolved s))) := ⟨rfl, rfl, rfl, rfl⟩
  rcases exStage_cases compute effect s with ⟨-, e⟩ | ⟨-, e⟩
  · exact hx.keepsLegal.trans (he _ _ _ (e.symm.trans h))
  · cases e.symm.trans h
    exact hx.keepsLegal

theorem noEffect_keepsLegal (x : Snapshot) (u v : State) (h : noEffect x u = .next v) : KeepsLegal u v := by
  cases h
  exact (SameStatus.refl u).keepsLegal

theorem transferIf_keepsLegal (taken : Snapshot → Bool) (target : Snapshot → Word) (x : Snapshot) (u v : State)
    (h : transferIf taken target x u = .next v) : KeepsLegal u v := by
  unfold transferIf at h
  split at h <;> cases h
  · exact SameStatus.keepsLegal ⟨rfl, rfl, rfl, rfl⟩
  · exact (SameStatus.refl u).keepsLegal

theorem writeHiLo_keepsLegal (hi lo : Word) {u v : State} (h : (.next (writeHiLo hi lo u) : Out) = .next v) :
    KeepsLegal u v := by
  cases h
  exact SameStatus.keepsLegal ⟨rfl, rfl, rfl, rfl⟩

theorem drawHiLo_keepsLegal {u v : State} (h : drawHiLo u = .next v) : KeepsLegal u v := by
  cases h
  exact SameStatus.keepsLegal ⟨rfl, rfl, rfl, rfl⟩

theorem divEffect_keepsLegal (x : Snapshot) (u v : State) (h : divEffect x u = .next v) : KeepsLegal u v := by
  unfold divEffect at h
  split at h
  · exact drawHiLo_keepsLegal h
  · exact writeHiLo_keepsLegal _ _ h

theorem divuEffect_keepsLegal (x : Snapshot) (u v : State) (h : divuEffect x u = .next v) : KeepsLegal u v := by
  unfold divuEffect at h
  split at h
  · exact drawHiLo_keepsLegal h
  · exact writeHiLo_keepsLegal _ _ h

theorem mfc0Effect_keepsLegal (n : Nat) (x : Snapshot) (u v : State) (h : mfc0Effect n x u = .next v) :
    KeepsLegal u v := by
  unfold mfc0Effect at h
  split at h <;> cases h <;> exact SameStatus.keepsLegal ⟨rfl, rfl, rfl, rfl⟩

theorem rfeEffect_keepsLegal (x : Snapshot) (u v : State) (h : rfeEffect x u = .next v) : KeepsLegal u v := by
  cases h
  exact ⟨rfl, fun ⟨hsr, hcause, h0⟩ => ⟨popStatus_reservedZero hsr, hcause, h0⟩⟩

/-- MTC0 writes SR under its mask or the two software interrupt bits of Cause, or no register (R53, R55). -/
theorem cp0Write_keepsLegal {u w : State} {n : Nat} {v : Word} (h : cp0Write u n v = .wrote w) : KeepsLegal u w := by
  unfold cp0Write at h
  split at h
  · cases h
    exact ⟨rfl, fun ⟨_, hcause, h0⟩ => ⟨and_disjoint_mask_eq_zero (by decide) v, hcause, h0⟩⟩
  · split at h
    · cases h
      exact ⟨rfl, fun ⟨hsr, hcause, h0⟩ => ⟨hsr, causeWritten_reservedZero hcause v, h0⟩⟩
    · split at h <;> cases h

theorem mtc0Effect_keepsLegal (n : Nat) (x : Snapshot) (u v : State) (h : mtc0Effect n x u = .next v) :
    KeepsLegal u v := by
  unfold mtc0Effect at h
  split at h <;> cases h
  · rename_i w hw
    exact (cp0Write_keepsLegal hw).trans (SameStatus.keepsLegal ⟨rfl, rfl, rfl, rfl⟩)
  · exact (SameStatus.refl u).keepsLegal

/-- In EX an instruction keeps the registers legal because its effect does. -/
theorem exec_execute_keepsLegal (i : Instr) {s t : State} (ha : s.active = .execute) (h : exec i s = .next t) :
    KeepsLegal s t := by
  cases i <;> replace h := (byStage_execute ha _ _ _ _).symm.trans h <;> refine exStage_keepsLegal ?_ h
  case jr | jalr | bltz | bgez | bltzal | bgezal | j | jal | beq | bne | blez | bgtz => exact transferIf_keepsLegal _ _
  case mult | multu | mthi | mtlo => exact fun _ _ _ e => writeHiLo_keepsLegal _ _ e
  case div => exact divEffect_keepsLegal
  case divu => exact divuEffect_keepsLegal
  case mfc0 n => exact mfc0Effect_keepsLegal n
  case mtc0 n => exact mtc0Effect_keepsLegal n
  case rfe => exact rfeEffect_keepsLegal
  case tlbr | tlbwi | tlbwr | tlbp | cop1 | cop2 | cop3 | lwc1 | lwc2 | lwc3 | swc1 | swc2 | swc3 =>
    exact fun _ _ _ e => nomatch e
  all_goals exact noEffect_keepsLegal

/-! ### A slot's work, in whichever stage -/

theorem exec_keepsLegal (i : Instr) {s t : State} (h : exec i s = .next t) : KeepsLegal s t := by
  cases ha : s.active with
  | decode => exact (decodeStep_sameStatus ((exec_decode i ha).symm.trans h)).keepsLegal
  | execute => exact exec_execute_keepsLegal i ha h
  | memory => exact (exec_memory_frame i ha h).keepsLegal
  | writeback => exact wbStage_keepsLegal ((exec_writeback i ha).symm.trans h)

theorem reservedWord_keepsLegal {s t : State} (h : reservedWord s = .next t) : KeepsLegal s t := by
  unfold reservedWord at h
  cases ha : s.active with
  | decode => exact (decodeStep_sameStatus ((byStage_decode ha _ _ _ _).symm.trans h)).keepsLegal
  | execute => exact exStage_keepsLegal noEffect_keepsLegal ((byStage_execute ha _ _ _ _).symm.trans h)
  | memory => exact (memStep_frame noAccess_frame ((byStage_memory ha _ _ _ _).symm.trans h)).keepsLegal
  | writeback => exact wbStage_keepsLegal ((byStage_writeback ha _ _ _ _).symm.trans h)

/-! ### The rest of the cycle writes none of these registers -/

theorem sampleInput_sameStatus (s : State) : SameStatus s (sampleInput s) := by
  unfold sampleInput
  split
  · exact ⟨rfl, rfl, rfl, rfl⟩
  · split <;> exact ⟨rfl, rfl, rfl, rfl⟩

/-- A fetch leaves them as they are, however it ends. -/
theorem fetchWord_sameStatus (s : State) (va : Word) :
    (∃ w t, fetchWord s va = .word w t ∧ SameStatus s t) ∨ (∃ t, fetchWord s va = .notReady t ∧ SameStatus s t) ∨
      ∃ recs t, fetchWord s va = .faulted recs t ∧ SameStatus s t := by
  unfold fetchWord
  dsimp only
  split
  · exact .inr (.inr ⟨_, _, rfl, .refl s⟩)
  · exact .inr (.inr ⟨_, _, rfl, .refl s⟩)
  · rename_i pa _ _
    split
    · have f := cacheReady_frame s .icache pa .fetch
      split
      · rename_i t e
        rw [e] at f
        exact .inr (.inl ⟨t, rfl, f.sameStatus⟩)
      · rename_i t e
        rw [e] at f
        exact .inl ⟨_, _, rfl, (f.trans (cacheRead_frame t .icache pa .word)).sameStatus⟩
    · split
      · exact .inl ⟨_, _, rfl, (mapperFetch_frame s pa .word .icache).sameStatus⟩
      · exact .inr (.inr ⟨_, _, rfl, .refl s⟩)

theorem ifPhase_sameStatus (s : State) : SameStatus s (ifPhase s) := by
  unfold ifPhase
  rcases fetchWord_sameStatus s s.pc with ⟨w, t, e, f⟩ | ⟨t, e, f⟩ | ⟨recs, t, e, f⟩ <;> rw [e] <;>
    exact ⟨f.cfg, f.gpr, f.sr, f.cause⟩

theorem acquireBus_sameStatus (s : State) (c : Client) : SameStatus s (acquireBus s c).2 := by
  rcases acquireBus_cases s c with ⟨-, -, e⟩ | ⟨-, -, e⟩ <;> rw [e] <;> exact ⟨rfl, rfl, rfl, rfl⟩

theorem releaseBus_sameStatus {s t : State} {c : Client} (h : releaseBus s c = .next t) : SameStatus s t := by
  obtain ⟨-, rfl⟩ := releaseBus_next h
  exact ⟨rfl, rfl, rfl, rfl⟩

theorem pollReady_sameStatus (s : State) : SameStatus s (pollReady s).2 := by
  unfold pollReady
  split
  · exact ⟨rfl, rfl, rfl, rfl⟩
  · split <;> exact ⟨rfl, rfl, rfl, rfl⟩

theorem requestWord_sameStatus (s : State) (r : BusRequest) : SameStatus s (requestWord s r) := by
  unfold requestWord
  split <;> exact ⟨rfl, rfl, rfl, rfl⟩

theorem requestWords_sameStatus (mode : AccessMode) (c : Client) (n : Nat) :
    ∀ (s : State) (addr : Word), SameStatus s (requestWords s addr mode c n) := by
  induction n with
  | zero => exact fun s _ => .refl s
  | succ n ih => exact fun s _ => (requestWord_sameStatus s _).trans (ih _ _)

theorem setCache_sameStatus (s : State) (c : CacheId) (k : Cache) : SameStatus s (s.setCache c k) :=
  (setCache_frame s c k).sameStatus

theorem enterTxn_sameStatus (s : State) (c : CacheId) (x : Txn) : SameStatus s (enterTxn s c x) := by
  unfold enterTxn
  have f := acquireBus_sameStatus s x.client
  split
  · exact .refl s
  · rename_i u e
    rw [e] at f
    exact (f.trans (setCache_sameStatus u c _)).trans (requestWords_sameStatus _ _ _ _ _)

theorem finishTxn_sameStatus (s : State) (c : CacheId) (x : Txn) : SameStatus s (finishTxn s c x) := by
  unfold finishTxn
  dsimp only
  split
  · exact .refl s
  · exact setCache_sameStatus s c _
  · split <;> exact setCache_sameStatus s c _
  · exact setCache_sameStatus s c _

theorem moveWord_sameStatus (s : State) (c : CacheId) (x : Txn) (a : Word) : SameStatus s (moveWord s c x a) := by
  unfold moveWord
  dsimp only
  split
  · exact (mapperFetch_frame s a .word x.client).sameStatus.trans (setCache_sameStatus _ c _)
  · exact (mapperStore_frame s a .word _ x.client).sameStatus

theorem countWord_sameStatus {s t : State} {c : CacheId} {x : Txn} (h : countWord s c x = .next t) :
    SameStatus s t := by
  unfold countWord at h
  dsimp only at h
  split at h
  · obtain ⟨u, hu, h⟩ := andThen_eq_next h
    cases h
    exact ((setCache_sameStatus s c _).trans (releaseBus_sameStatus hu)).trans (finishTxn_sameStatus u c _)
  · cases h
    exact setCache_sameStatus s c _

theorem transferWord_sameStatus {s t : State} {c : CacheId} {x : Txn} (h : transferWord s c x = .next t) :
    SameStatus s t := by
  unfold transferWord at h
  dsimp only at h
  split at h
  · have f := pollReady_sameStatus s
    split at h
    · rename_i u e
      rw [e] at f
      cases h
      exact f
    · rename_i u e
      rw [e] at f
      have m := moveWord_sameStatus u c x (x.addr + BitVec.ofNat 32 (4 * x.next))
      have r : ∀ (v : State) (q : BusRequest), SameStatus v (retireRequest v q) := fun _ _ => ⟨rfl, rfl, rfl, rfl⟩
      exact ((f.trans m).trans (r _ _)).trans (countWord_sameStatus h)
  · cases h

theorem stepCache_sameStatus {s t : State} {c : CacheId} (h : stepCache s c = .next t) : SameStatus s t := by
  unfold stepCache at h
  split at h
  · cases h
    exact .refl s
  · split at h
    · cases h
      exact .refl s
    · split at h
      · exact transferWord_sameStatus h
      · cases h
        exact enterTxn_sameStatus s c _

theorem masterAct_sameStatus {s t : State} {a : MasterAction} (h : masterAct s a = .next t) : SameStatus s t := by
  rw [masterAct_frame h]
  exact ⟨rfl, rfl, rfl, rfl⟩

/-! ### The step -/

/-- Whatever `s` is, every part of a cycle goes from a state that keeps the registers of `s` legal to another. -/
theorem keepsLegal_keptByParts (s : State) : KeptByParts (KeepsLegal s) where
  input u k := k.trans (sampleInput_sameStatus u).keepsLegal
  mark _ _ _ k := k.trans (SameStatus.keepsLegal ⟨rfl, rfl, rfl, rfl⟩)
  exec i _ _ k _ h := k.trans (exec_keepsLegal i h)
  reserved _ _ k _ h := k.trans (reservedWord_keepsLegal h)
  hold _ k := k.trans (SameStatus.keepsLegal ⟨rfl, rfl, rfl, rfl⟩)
  move _ k := k.trans (SameStatus.keepsLegal ⟨rfl, rfl, rfl, rfl⟩)
  fetch u k := k.trans (ifPhase_sameStatus u).keepsLegal
  cache _ _ _ k h := k.trans (stepCache_sameStatus h).keepsLegal
  master _ _ _ k h := k.trans (masterAct_sameStatus h).keepsLegal
  clock _ k := k.trans (SameStatus.keepsLegal ⟨rfl, rfl, rfl, rfl⟩)

theorem step_keepsLegal {s t : State} (h : step s = .next t) : KeepsLegal s t :=
  (keepsLegal_keptByParts s).step (SameStatus.refl s).keepsLegal h

/-- Settles O57: a step is made of parts that each keep the registers legal and the parameters as they are. -/
theorem statusStaysLegal : Obligations.StatusStaysLegal := by
  intro s t hs h
  exact ⟨(step_keepsLegal h).legal hs, (step_keepsLegal h).cfg⟩

end Sys2Proof.Machine
end

section
/-! O56, O58. Every step keeps memory canonical, and the caches, the bus, the slots and the line arrays consistent
(spec/10_state.md R39, R62 to R64, R69, spec/20_memory.md R148, R150, R153, R170 to R172).
The caches' and the bus's part is said once for both caches (`CacheSound`): a cache is IDLE exactly without a transaction,
holds the token exactly while that has entered, and ICACHE is clean. Every operation of a cycle goes from a state to one
that has it, and canonical memory and the shape of the line arrays, if the first has (`KeepsData`); the slots are a
matter of the stages' frames (`ExFrame`, `MemFrame`). -/

namespace Sys2Proof.Machine

/-! ### The lines of a cache -/

/-- The lines of `k'` have every shape that those of `k` have, and are clean in ICACHE if those of `k` are. -/
structure KeepsLines (c : CacheId) (k k' : Cache) : Prop where
  shape : ∀ g, cacheShape g k = true → cacheShape g k' = true
  clean : c = .icache → (∀ l ∈ k.lines, l.dirty = false) → ∀ l ∈ k'.lines, l.dirty = false

theorem KeepsLines.of_eq {c : CacheId} {k k' : Cache} (h : k'.lines = k.lines) : KeepsLines c k k' where
  shape g := by unfold cacheShape; rw [h]; exact id
  clean _ := by rw [h]; exact id

/-- What every line has, every line has after one is replaced, if the new one has what the old one had. -/
theorem setLine_forall {p : CacheLine → Prop} {k : Cache} {g : Geometry} {w i : Nat} {l : CacheLine}
    (hp : p (k.line g w i) → p l) (h : ∀ m ∈ k.lines, p m) : ∀ m ∈ (k.setLine g w i l).lines, p m := by
  intro m hm
  by_cases hb : g.slot w i < k.lines.length
  · have hold : k.line g w i ∈ k.lines := by
      unfold Cache.line
      rw [List.getD_eq_getElem _ _ hb]
      exact List.getElem_mem hb
    rcases List.mem_or_eq_of_mem_set hm with hm | rfl
    · exact h m hm
    · exact hp (h _ hold)
  · refine h m ?_
    rwa [Cache.setLine, List.set_eq_of_length_le (Nat.le_of_not_lt hb)] at hm

/-- A line replaced by one with as many words, and in ICACHE by no dirtier one. -/
theorem KeepsLines.of_setLine {c : CacheId} {k k' : Cache} {g : Geometry} {w i : Nat} {l : CacheLine}
    (h : k'.lines = (k.setLine g w i l).lines) (hw : l.data.length = (k.line g w i).data.length)
    (hd : c = .icache → (k.line g w i).dirty = false → l.dirty = false) : KeepsLines c k k' where
  shape g' := by
    simp only [cacheShape, Bool.and_eq_true, beq_iff_eq, List.all_eq_true, h]
    rintro ⟨hn, hl⟩
    exact ⟨by simpa [Cache.setLine] using hn,
      setLine_forall (p := fun l => l.data.length = g'.words) (fun e => hw.trans e) hl⟩
  clean hc hl := by
    rw [h]
    exact setLine_forall (p := fun l => l.dirty = false) (hd hc) hl

/-! ### One cache and the token -/

/-- A cache in order when `holder` holds the bus: its controller and transaction agree, it holds the token exactly while
its transaction has entered, and ICACHE is clean and never writes back. -/
structure CacheSound (c : CacheId) (holder : Option Client) (k : Cache) : Prop where
  ctrl  : ctrlConsistent c k
  token : holder = some c.client ↔ k.onBus = true
  clean : c = .icache → (∀ l ∈ k.lines, l.dirty = false) ∧ (k.ctrl = .idle ∨ k.ctrl = .fetch)

/-- Both caches are in order under the token. -/
def CachesSound (s : State) : Prop := ∀ c, CacheSound c s.bus.holder (s.cache c)

theorem cachesConsistent_iff (s : State) : cachesConsistent s ↔ CachesSound s ∧ bubblesClean s := by
  constructor
  · rintro ⟨hclean, ⟨hi, hd, hti, htd⟩, hb⟩
    refine ⟨fun c => ?_, hb⟩
    cases c
    · exact ⟨hi, hti, fun _ => hclean⟩
    · exact ⟨hd, htd, fun e => nomatch e⟩
  · rintro ⟨h, hb⟩
    exact ⟨(h .icache).clean rfl, ⟨(h .icache).ctrl, (h .dcache).ctrl, (h .icache).token, (h .dcache).token⟩, hb⟩

theorem CacheId.client_injective {c d : CacheId} (h : c.client = d.client) : c = d :=
  match c, d, h with
  | .icache, .icache, _ | .dcache, .dcache, _ => rfl

/-- The token going from one that is not this cache to another that is not leaves the cache in order. -/
theorem CacheSound.of_token {c : CacheId} {h h' : Option Client} {k : Cache} (q : CacheSound c h k)
    (e : h' = some c.client ↔ h = some c.client) : CacheSound c h' k :=
  ⟨q.ctrl, e.trans q.token, q.clean⟩

/-- A change of the lines leaves the cache in order. -/
theorem CacheSound.of_lines {c : CacheId} {h : Option Client} {k k' : Cache} (q : CacheSound c h k)
    (hl : KeepsLines c k k') (hc : k'.ctrl = k.ctrl) (ht : k'.txn = k.txn) : CacheSound c h k' where
  ctrl := by unfold ctrlConsistent; rw [hc, ht]; exact q.ctrl
  token := by unfold Cache.onBus; rw [ht]; exact q.token
  clean e := ⟨hl.clean e (q.clean e).1, by rw [hc]; exact (q.clean e).2⟩

/-- A cache with a transaction of its own, which has entered exactly if the cache holds the token, is in order. -/
theorem CacheSound.of_txn {c : CacheId} {h : Option Client} {k : Cache} {x : Txn} (ht : k.txn = some x)
    (hc : k.ctrl ≠ .idle) (hx : x.client = c.client) (he : h = some c.client ↔ x.entered = true)
    (hi : c = .icache → (∀ l ∈ k.lines, l.dirty = false) ∧ k.ctrl = .fetch) : CacheSound c h k where
  ctrl := ⟨by simp [ht, hc], fun y hy => by cases ht.symm.trans hy; exact hx⟩
  token := by simpa [Cache.onBus, ht] using he
  clean e := ⟨(hi e).1, .inr (hi e).2⟩

/-- An IDLE cache without a transaction or the token is in order. -/
theorem CacheSound.of_idle {c : CacheId} {h : Option Client} {k : Cache} (hc : k.ctrl = .idle) (ht : k.txn = none)
    (hh : h ≠ some c.client) (hi : c = .icache → ∀ l ∈ k.lines, l.dirty = false) : CacheSound c h k where
  ctrl := ⟨by simp [hc, ht], fun y hy => by cases ht.symm.trans hy⟩
  token := by simp [Cache.onBus, ht, hh]
  clean e := ⟨hi e, .inl hc⟩

/-- An IDLE cache does not hold the token. -/
theorem CacheSound.idle_token {c : CacheId} {h : Option Client} {k : Cache} (q : CacheSound c h k) (hc : k.ctrl = .idle) :
    h ≠ some c.client := by
  have ht : k.txn = none := q.ctrl.1.mp hc
  intro e
  simpa [Cache.onBus, ht] using q.token.mp e

/-- A cache with a transaction is not IDLE, and the transaction is its own. -/
theorem CacheSound.busy {c : CacheId} {h : Option Client} {k : Cache} (q : CacheSound c h k) {x : Txn}
    (ht : k.txn = some x) : k.ctrl ≠ .idle ∧ x.client = c.client ∧ (h = some c.client ↔ x.entered = true) := by
  refine ⟨fun e => ?_, q.ctrl.2 x ht, by simpa [Cache.onBus, ht] using q.token⟩
  cases ht.symm.trans (q.ctrl.1.mp e)

/-- An ICACHE that is not IDLE is filling. -/
theorem CacheSound.icache_fetch {c : CacheId} {h : Option Client} {k : Cache} (q : CacheSound c h k) (hn : k.ctrl ≠ .idle)
    (e : c = .icache) : k.ctrl = .fetch := (q.clean e).2.resolve_left hn

/-! ### What an operation of the machine keeps -/

/-- `t` has the parameters of `s`, and canonical memory, line arrays in shape and caches in order if `s` has. -/
structure KeepsData (s t : State) : Prop where
  cfg    : t.cfg = s.cfg
  memory : memoryCanonical s → memoryCanonical t
  shape  : ∀ c g, cacheShape g (s.cache c) = true → cacheShape g (t.cache c) = true
  sound  : CachesSound s → CachesSound t

theorem KeepsData.trans {s t u : State} (f : KeepsData s t) (g : KeepsData t u) : KeepsData s u :=
  ⟨g.cfg.trans f.cfg, g.memory ∘ f.memory, fun c x => g.shape c x ∘ f.shape c x, g.sound ∘ f.sound⟩

/-- The same parameters, memory, caches and bus. -/
theorem KeepsData.of_same {s t : State} (hc : t.cfg = s.cfg) (hm : t.mem = s.mem) (hi : t.icache = s.icache)
    (hd : t.dcache = s.dcache) (hb : t.bus = s.bus) : KeepsData s t := by
  have hk : ∀ c, t.cache c = s.cache c := fun c => by cases c; exacts [hi, hd]
  refine ⟨hc, ?_, ?_, ?_⟩
  · unfold memoryCanonical; rw [hm]; exact id
  · intro c g; rw [hk]; exact id
  · unfold CachesSound; simp only [hk, hb]; exact id

theorem KeepsData.refl (s : State) : KeepsData s s := .of_same rfl rfl rfl rfl rfl

theorem KeepsData.arrays {s t : State} (f : KeepsData s t) (h : arraysInBounds s = true) : arraysInBounds t = true := by
  simp only [arraysInBounds, Bool.and_eq_true, Bool.or_eq_true, f.cfg] at h ⊢
  exact ⟨h.1.imp_right (f.shape .icache _), h.2.imp_right (f.shape .dcache _)⟩

/-- A `KeepsData` that leaves the slots as they are too. -/
structure KeepsDataAndSlots (s t : State) : Prop extends KeepsData s t where
  pipe : t.pipe = s.pipe

theorem KeepsDataAndSlots.trans {s t u : State} (f : KeepsDataAndSlots s t) (g : KeepsDataAndSlots t u) :
    KeepsDataAndSlots s u :=
  ⟨f.toKeepsData.trans g.toKeepsData, g.pipe.trans f.pipe⟩

theorem KeepsDataAndSlots.refl (s : State) : KeepsDataAndSlots s s := ⟨.refl s, rfl⟩

theorem cache_setCache_other {c d : CacheId} (h : d ≠ c) (s : State) (k : Cache) : (s.setCache c k).cache d = s.cache d :=
  match c, d, h with
  | .icache, .dcache, _ | .dcache, .icache, _ => rfl
  | .icache, .icache, h | .dcache, .dcache, h => absurd rfl h

/-- `s` with the bus token `b`. -/
def State.withBus (s : State) (b : BusToken) : State := { s with bus := b }

@[simp] theorem cache_withBus (s : State) (b : BusToken) (c : CacheId) : (s.withBus b).cache c = s.cache c := by
  cases c <;> rfl

/-- A change of one cache and of the token: the lines and the cache have to be kept, and the token may not come from or
go to the other cache. -/
theorem setCacheAndBus_keeps {s : State} {c : CacheId} {k : Cache} {b : BusToken} (hl : KeepsLines c (s.cache c) k)
    (hs : CacheSound c s.bus.holder (s.cache c) → CacheSound c b.holder k ∧
      ∀ d, d ≠ c → (b.holder = some d.client ↔ s.bus.holder = some d.client)) :
    KeepsDataAndSlots s ((s.withBus b).setCache c k) where
  cfg := setCache_cfg _ _ _
  memory := by unfold memoryCanonical; rw [setCache_mem]; exact id
  shape d g h := by
    by_cases e : d = c
    · subst e; rw [cache_setCache]; exact hl.shape g h
    · rw [cache_setCache_other e, cache_withBus]; exact h
  sound q d := by
    rw [setCache_bus]
    by_cases e : d = c
    · subst e; rw [cache_setCache]; exact (hs (q d)).1
    · rw [cache_setCache_other e, cache_withBus]; exact (q d).of_token ((hs (q c)).2 d e)
  pipe := setCache_pipe _ _ _

theorem setCache_keeps {s : State} {c : CacheId} {k : Cache} (hl : KeepsLines c (s.cache c) k)
    (hs : CacheSound c s.bus.holder (s.cache c) → CacheSound c s.bus.holder k) :
    KeepsDataAndSlots s (s.setCache c k) :=
  setCacheAndBus_keeps (b := s.bus) hl fun q => ⟨hs q, fun _ _ => Iff.rfl⟩

/-- A cache whose lines alone change. -/
theorem setCache_lines_keeps {s : State} {c : CacheId} {k : Cache} (hl : KeepsLines c (s.cache c) k)
    (hc : k.ctrl = (s.cache c).ctrl) (ht : k.txn = (s.cache c).txn) : KeepsDataAndSlots s (s.setCache c k) :=
  setCache_keeps hl fun q => q.of_lines hl hc ht

/-- An IDLE cache that begins a transaction of its own, of ICACHE a fill. -/
theorem setCache_start_keeps {s : State} {c : CacheId} {k : Cache} {x : Txn} (hi : (s.cache c).ctrl = .idle)
    (hl : k.lines = (s.cache c).lines) (hc : k.ctrl ≠ .idle) (ht : k.txn = some x) (hx : x.client = c.client)
    (he : x.entered = false) (hf : c = .icache → k.ctrl = .fetch) : KeepsDataAndSlots s (s.setCache c k) :=
  setCache_keeps (.of_eq hl) fun q =>
    .of_txn ht hc hx (by simp [he, q.idle_token hi]) fun e => ⟨by rw [hl]; exact (q.clean e).1, hf e⟩

/-! ### The Mapper -/

theorem drew_keeps (s : State) (n : Nat) : KeepsDataAndSlots s (s.drew n) := ⟨.of_same rfl rfl rfl rfl rfl, rfl⟩

@[simp] theorem cache_drew (s : State) (n : Nat) (c : CacheId) : (s.drew n).cache c = s.cache c := by
  cases c <;> rfl

@[simp] theorem cache_mapperFetch (s : State) (pa : Word) (w : Width) (d : Client) (c : CacheId) :
    (mapperFetch s pa w d).2.cache c = s.cache c := by
  unfold mapperFetch
  split <;> cases c <;> rfl

@[simp] theorem cache_mapperStore (s : State) (pa : Word) (w : Width) (v : Word) (d : Client) (c : CacheId) :
    (mapperStore s pa w v d).cache c = s.cache c := by
  unfold mapperStore
  split <;> cases c <;> rfl

@[simp] theorem cache_pollReady (s : State) (c : CacheId) : (pollReady s).2.cache c = s.cache c := by
  unfold pollReady
  split
  · cases c <;> rfl
  · split
    · rfl
    · exact cache_drew s 1 c

@[simp] theorem cache_retireRequest (s : State) (r : BusRequest) (c : CacheId) :
    (retireRequest s r).cache c = s.cache c := by
  cases c <;> rfl

theorem mapperFetch_keeps (s : State) (pa : Word) (w : Width) (c : Client) :
    KeepsDataAndSlots s (mapperFetch s pa w c).2 := by
  unfold mapperFetch
  split <;> exact ⟨.of_same rfl rfl rfl rfl rfl, rfl⟩

theorem mapperStore_keeps (s : State) (pa : Word) (w : Width) (v : Word) (c : Client) :
    KeepsDataAndSlots s (mapperStore s pa w v c) := by
  have hbus : (mapperStore s pa w v c).bus = s.bus := (mapperStore_frame s pa w v c).bus
  have hpipe : (mapperStore s pa w v c).pipe = s.pipe := by unfold mapperStore; split <;> rfl
  refine ⟨⟨(mapperStore_frame s pa w v c).cfg, fun h => wf_mapperStore h pa w v c, fun d g => ?_, fun q d => ?_⟩, hpipe⟩
  · rw [cache_mapperStore]
    exact id
  · rw [hbus, cache_mapperStore]
    exact q d

theorem pollReady_keeps (s : State) : KeepsDataAndSlots s (pollReady s).2 := by
  unfold pollReady
  split
  · exact ⟨.of_same rfl rfl rfl rfl rfl, rfl⟩
  · split <;> exact ⟨.of_same rfl rfl rfl rfl rfl, rfl⟩

theorem requestWord_keeps (s : State) (r : BusRequest) : KeepsDataAndSlots s (requestWord s r) := by
  unfold requestWord
  split <;> exact ⟨.of_same rfl rfl rfl rfl rfl, rfl⟩

theorem requestWords_keeps (mode : AccessMode) (c : Client) (n : Nat) :
    ∀ (s : State) (addr : Word), KeepsDataAndSlots s (requestWords s addr mode c n) := by
  induction n with
  | zero => exact fun s _ => .refl s
  | succ n ih => exact fun s _ => (requestWord_keeps s _).trans (ih _ _)

theorem retireRequest_keeps (s : State) (r : BusRequest) : KeepsDataAndSlots s (retireRequest s r) :=
  ⟨.of_same rfl rfl rfl rfl rfl, rfl⟩

/-! ### Accesses through a cache -/

/-- A miss starts in an IDLE cache, and in ICACHE by a fetch, which evicts nothing (R144, R153). -/
theorem startMiss_keeps {s : State} {c : CacheId} {mode : AccessMode} (hi : (s.cache c).ctrl = .idle)
    (hm : c = .icache → mode = .fetch) (pa : Word) : KeepsDataAndSlots s (startMiss s c pa mode) := by
  unfold startMiss
  dsimp only
  split
  · rename_i h
    refine setCache_start_keeps hi rfl (fun e => nomatch e) rfl rfl rfl fun e => ?_
    simp [hm e] at h
  · exact setCache_start_keeps hi rfl (fun e => nomatch e) rfl rfl rfl fun _ => rfl

theorem cacheReady_keeps (s : State) {c : CacheId} {mode : AccessMode} (hm : c = .icache → mode = .fetch) (pa : Word) :
    KeepsDataAndSlots s (cacheReady s c pa mode).2 := by
  unfold cacheReady
  split
  · exact .refl s
  · rename_i hi
    split
    · exact .refl s
    · exact startMiss_keeps (not_not.mp hi) hm pa

theorem cacheRead_keeps (s : State) (c : CacheId) (pa : Word) (w : Width) :
    KeepsDataAndSlots s (cacheRead s c pa w).2 := by
  unfold cacheRead
  dsimp only
  split
  · refine (drew_keeps s _).trans (setCache_lines_keeps ?_ ?_ ?_) <;> rw [cache_drew]
    · exact .of_setLine rfl rfl fun _ h => h
    · rfl
    · rfl
  · exact .refl s

/-- Only DCACHE is written through (R146). -/
theorem cacheWrite_keeps (s : State) (pa : Word) (w : Width) (v : Word) :
    KeepsDataAndSlots s (cacheWrite s .dcache pa w v) := by
  unfold cacheWrite
  dsimp only
  split
  · exact (drew_keeps s _).trans
      (setCache_lines_keeps (.of_setLine rfl List.length_set fun e => nomatch e) rfl rfl)
  · exact .refl s

/-! ### The MEM step -/

/-- The state an access ends in. -/
def Access.state : Access → State
  | .faulted s | .stall s | .done _ s => s

/-- The state the MEM work of an instruction ends in. -/
def MemWork.state : MemWork → State
  | .stall s | .done s => s

theorem setMem_keeps (s : State) (x : Snapshot) : KeepsData s (s.setMem x) := .of_same rfl rfl rfl rfl rfl

theorem raiseMem_keeps (s : State) (recs : List ExcRecord) : KeepsData s (s.raiseMem recs) := setMem_keeps s _

theorem readAt_keeps (s : State) (pa : Word) (c : Bool) (w : Width) (bad : Word) :
    KeepsData s (readAt s pa c w bad).state := by
  unfold readAt
  split
  · have f := cacheReady_keeps s (c := .dcache) (mode := .load) (fun e => nomatch e) pa
    split
    · rename_i t e
      rw [e] at f
      exact f.toKeepsData
    · rename_i t e
      rw [e] at f
      exact (f.trans (cacheRead_keeps t .dcache pa w)).toKeepsData
  · split
    · exact (mapperFetch_keeps s pa w .dcache).toKeepsData
    · exact raiseMem_keeps s _

theorem memRead_keeps (s : State) (va bad : Word) (w : Width) : KeepsData s (memRead s va bad w).state := by
  have r := raiseMem_keeps s (alignCheck va w .load ++ (addressTranslate s va bad .load).recs)
  unfold memRead
  dsimp only
  split
  · exact r
  · split
    · exact r
    · exact r.trans (readAt_keeps _ _ _ _ _)

theorem storesReady_keeps (ts : List StoreTarget) : ∀ s : State, KeepsDataAndSlots s (storesReady s ts).2 := by
  induction ts with
  | nil => exact fun s => .refl s
  | cons t ts ih =>
    intro s
    unfold storesReady
    split
    · have f := cacheReady_keeps s (c := .dcache) (mode := .store) (fun e => nomatch e) t.pa
      split
      · rename_i u e
        rw [e] at f
        exact f
      · rename_i u e
        rw [e] at f
        exact f.trans (ih u)
    · exact ih s

theorem storeAt_keeps (s : State) (t : StoreTarget) : KeepsDataAndSlots s (storeAt s t) := by
  unfold storeAt
  split
  · exact cacheWrite_keeps s _ _ _
  · exact mapperStore_keeps s _ _ _ _

theorem storeAll_keeps (ts : List StoreTarget) : ∀ s : State, KeepsDataAndSlots s (storeAll s ts) := by
  induction ts with
  | nil => exact fun s => .refl s
  | cons t ts ih => exact fun s => (storeAt_keeps s t).trans (ih _)

theorem writeAt_keeps (s : State) (bad : Word) (ts : List StoreTarget) : KeepsData s (writeAt s bad ts).state := by
  unfold writeAt
  split
  · have f := storesReady_keeps ts s
    split
    · rename_i u e
      rw [e] at f
      exact f.toKeepsData
    · rename_i u e
      rw [e] at f
      exact (f.trans (storeAll_keeps ts u)).toKeepsData
  · exact raiseMem_keeps s _

theorem memWrite_keeps (s : State) (bad : Word) (items : List StoreItem) : KeepsData s (memWrite s bad items).state := by
  have r := raiseMem_keeps s (storeRecs s bad items)
  unfold memWrite
  dsimp only
  split
  · exact r
  · exact r.trans (writeAt_keeps _ _ _)

theorem loadWork_keeps {read : State → Access} {extend : State → Snapshot → Word → Word} (s : State)
    (h : KeepsData s (read s).state) : KeepsData s (loadWork read extend s).state := by
  unfold loadWork
  split <;> rename_i e <;> rw [e] at h
  · exact h
  · exact h
  · exact h.trans (setMem_keeps _ _)

theorem storeWork_keeps {write : State → Access} (s : State) (h : KeepsData s (write s).state) :
    KeepsData s (storeWork write s).state := by
  unfold storeWork
  split <;> rename_i e <;> rw [e] at h <;> exact h

theorem opHitInvalidate_keeps (s : State) (c : CacheId) (pa : Word) : KeepsDataAndSlots s (opHitInvalidate s c pa) := by
  unfold opHitInvalidate
  dsimp only
  split
  · exact setCache_lines_keeps (.of_setLine rfl rfl fun _ _ => rfl) rfl rfl
  · exact .refl s

/-- Only DCACHE has a writeback operation (R160). -/
theorem opHitWriteback_keeps {s : State} (hi : (s.cache .dcache).ctrl = .idle) (pa : Word) :
    KeepsDataAndSlots s (opHitWriteback s .dcache pa) := by
  unfold opHitWriteback
  dsimp only
  split
  · split
    · exact setCache_start_keeps hi rfl (fun e => nomatch e) rfl rfl rfl fun e => nomatch e
    · exact .refl s
  · exact .refl s

theorem opHitWbInvalidate_keeps {s : State} (hi : (s.cache .dcache).ctrl = .idle) (pa : Word) :
    KeepsDataAndSlots s (opHitWbInvalidate s .dcache pa) := by
  unfold opHitWbInvalidate
  dsimp only
  split
  · split
    · exact setCache_start_keeps hi rfl (fun e => nomatch e) rfl rfl rfl fun e => nomatch e
    · exact setCache_lines_keeps (.of_setLine rfl rfl fun e => nomatch e) rfl rfl
  · exact .refl s

/-- The operations of the table of R160. -/
theorem cacheAction_cases (op : Nat) :
    cacheAction op = .noOp ∨ (∃ c, cacheAction op = .hitInvalidate c) ∨ cacheAction op = .hitWriteback .dcache ∨
      cacheAction op = .hitWbInvalidate .dcache := by
  unfold cacheAction
  split
  · exact .inr (.inl ⟨_, rfl⟩)
  · split
    · exact .inr (.inl ⟨_, rfl⟩)
    · split
      · exact .inr (.inr (.inr rfl))
      · split
        · exact .inr (.inr (.inl rfl))
        · exact .inl rfl

/-- An operation of CACHE is performed on an IDLE cache (R398). -/
theorem perform_keeps {s : State} {op : Nat} {c : CacheId} (ht : (cacheAction op).target = some c)
    (hi : (s.cache c).ctrl = .idle) (pa : Word) : KeepsDataAndSlots s ((cacheAction op).perform s pa) := by
  rcases cacheAction_cases op with e | ⟨d, e⟩ | e | e <;> rw [e] at ht ⊢ <;> cases ht
  · exact opHitInvalidate_keeps s c pa
  · exact opHitWriteback_keeps hi pa
  · exact opHitWbInvalidate_keeps hi pa

theorem cacheIssue_keeps (op : Nat) (pa : Word) (s : State) : KeepsData s (cacheIssue op pa s).state := by
  unfold cacheIssue
  split
  · exact .refl s
  · rename_i c ht
    split
    · exact .refl s
    · split
      · exact .refl s
      · rename_i hi
        have f := (perform_keeps ht (not_not.mp hi) pa).toKeepsData.trans (setMem_keeps _
          { ((cacheAction op).perform s pa).pipe.mem with memIssued := true })
        dsimp only
        split <;> exact f

theorem cacheWait_keeps (op : Nat) (s : State) : KeepsData s (cacheWait op s).state := by
  unfold cacheWait
  split
  · exact .refl s
  · split <;> exact .refl s

theorem cacheWork_keeps (op : Nat) (s : State) : KeepsData s (cacheWork op s).state := by
  have r := raiseMem_keeps s (addressTranslateUnchecked s s.pipe.mem.ea .load).recs
  unfold cacheWork
  dsimp only
  split
  · exact cacheWait_keeps op s
  · split
    · exact r
    · split
      · exact r
      · exact r.trans (cacheIssue_keeps op _ _)

theorem sampleInterrupt_keeps (s : State) : KeepsData s (sampleInterrupt s) := by
  unfold sampleInterrupt
  split
  · exact raiseMem_keeps s _
  · exact .refl s

theorem memStep_keeps {isRfe : Bool} {work : State → MemWork} {s t : State} (hw : ∀ u, KeepsData u (work u).state)
    (h : memStep isRfe work s = .next t) : KeepsData s t := by
  have f := (sampleInterrupt_keeps s).trans (hw _)
  unfold memStep at h
  split at h <;> rename_i e <;> rw [e] at f <;> cases h <;> exact f.trans (.of_same rfl rfl rfl rfl rfl)

theorem noAccess_keeps (s : State) : KeepsData s (noAccess s).state := .refl s

/-! ### A slot's work -/

theorem ExFrame.keepsData {s t : State} (f : ExFrame s t) : KeepsData s t := .of_same f.cfg f.mem f.icache f.dcache f.bus

theorem wbStage_keeps {s t : State} (h : wbStage s = .next t) : KeepsData s t := by
  rcases wbStage_cases s with ⟨r, -, e⟩ | ⟨-, e⟩ <;> cases e.symm.trans h
  · exact .of_same rfl rfl rfl rfl rfl
  · exact .of_same (by simp) (by simp) (by simp) (by simp) (by simp)

theorem decodeStep_keeps {d : DecodeOut} {recs : List ExcRecord} {s t : State} (h : decodeStep d recs s = .next t) :
    KeepsData s t := by
  cases h
  exact .of_same rfl rfl rfl rfl rfl

theorem exec_memory_keeps (i : Instr) {s t : State} (ha : s.active = .memory) (h : exec i s = .next t) :
    KeepsData s t := by
  cases i <;> replace h := (byStage_memory ha _ _ _ _).symm.trans h <;> refine memStep_keeps ?_ h
  case lb | lh | lwl | lw | lbu | lhu | lwr => exact fun u => loadWork_keeps u (memRead_keeps u _ _ _)
  case sb | sh | swl | sw | swr => exact fun u => storeWork_keeps u (memWrite_keeps u _ _)
  case cache op _ => exact cacheWork_keeps op
  all_goals exact noAccess_keeps

theorem exec_keeps (i : Instr) {s t : State} (h : exec i s = .next t) : KeepsData s t := by
  cases ha : s.active with
  | decode => exact decodeStep_keeps ((exec_decode i ha).symm.trans h)
  | execute => exact (exec_execute_frame i ha h).keepsData
  | memory => exact exec_memory_keeps i ha h
  | writeback => exact wbStage_keeps ((exec_writeback i ha).symm.trans h)

/-- In EX a reserved word changes its own snapshot alone. -/
theorem reservedWord_execute_frame {s t : State} (ha : s.active = .execute) (h : reservedWord s = .next t) :
    ExFrame s t :=
  exStage_frame (compute := noCompute) (keeps_resolved s) (fun _ _ e _ => noEffect_frame e)
    ((byStage_execute ha _ _ _ _).symm.trans h)

theorem reservedWord_keeps {s t : State} (h : reservedWord s = .next t) : KeepsData s t := by
  cases ha : s.active with
  | decode => exact decodeStep_keeps ((byStage_decode ha _ _ _ _).symm.trans h)
  | execute => exact (reservedWord_execute_frame ha h).keepsData
  | memory => exact memStep_keeps noAccess_keeps ((byStage_memory ha _ _ _ _).symm.trans h)
  | writeback => exact wbStage_keeps ((byStage_writeback ha _ _ _ _).symm.trans h)

/-! ### The fetch -/

/-- The state a fetch ends in. -/
def Fetched.state : Fetched → State
  | .word _ s | .notReady s | .faulted _ s => s

theorem fetchWord_keeps (s : State) (va : Word) : KeepsDataAndSlots s (fetchWord s va).state := by
  unfold fetchWord
  dsimp only
  split
  · exact .refl s
  · exact .refl s
  · rename_i pa _ _
    split
    · have f := cacheReady_keeps s (c := .icache) (mode := .fetch) (fun _ => rfl) pa
      split
      · rename_i t e
        rw [e] at f
        exact f
      · rename_i t e
        rw [e] at f
        exact f.trans (cacheRead_keeps t .icache pa .word)
    · split
      · exact mapperFetch_keeps s pa .word .icache
      · exact .refl s

/-- The IF step is a fetch and a new IF slot, a bubble or a word of its own. -/
theorem ifPhase_cases (s : State) :
    ∃ x pc, (x = bubbleSnapshot ∨ x.bubble = false) ∧ ifPhase s =
      { (fetchWord s s.pc).state with pipe := { (fetchWord s s.pc).state.pipe with fetch := x }, pc := pc } := by
  unfold ifPhase
  split <;> rename_i e <;> rw [e]
  · exact ⟨_, _, .inr rfl, rfl⟩
  · exact ⟨_, _, .inr rfl, rfl⟩
  · exact ⟨_, _, .inl rfl, rfl⟩

theorem ifPhase_keeps (s : State) : KeepsData s (ifPhase s) := by
  obtain ⟨x, pc, -, e⟩ := ifPhase_cases s
  rw [e]
  exact (fetchWord_keeps s s.pc).toKeepsData.trans (.of_same rfl rfl rfl rfl rfl)

/-! ### The cache's step -/

/-- A cache takes the token as its transaction enters (R148). -/
theorem takeToken_keeps {s : State} {c : CacheId} {k : Cache} {x : Txn} {b : BusToken} (hx : (s.cache c).txn = some x)
    (hfree : s.bus.holder = some x.client ∨ s.bus.holder = none) (hb : b.holder = some x.client)
    (hl : KeepsLines c (s.cache c) k) (hc : k.ctrl = (s.cache c).ctrl) (ht : k.txn = some { x with entered := true }) :
    KeepsDataAndSlots s ((s.withBus b).setCache c k) := by
  refine setCacheAndBus_keeps hl fun q => ?_
  obtain ⟨hn, hown, -⟩ := q.busy hx
  rw [hown] at hb hfree
  refine ⟨.of_txn ht (hc ▸ hn) hown (by simp [hb]) fun e => ⟨hl.clean e (q.clean e).1, hc.trans (q.icache_fetch hn e)⟩,
    fun d hd => ?_⟩
  have hne : c.client ≠ d.client := fun e => hd (CacheId.client_injective e.symm)
  rcases hfree with h | h <;> simp [hb, h, hne]

/-- A cache gives the token back as its transaction completes (R150). -/
theorem giveToken_keeps {s : State} {c : CacheId} {k : Cache} {x : Txn} {b : BusToken} (hx : (s.cache c).txn = some x)
    (hh : s.bus.holder = some x.client) (hb : b.holder = none) (hl : KeepsLines c (s.cache c) k)
    (hk : CacheSound c s.bus.holder (s.cache c) → CacheSound c none k) :
    KeepsDataAndSlots s ((s.withBus b).setCache c k) := by
  refine setCacheAndBus_keeps hl fun q => ⟨hb ▸ hk q, fun d hd => ?_⟩
  have hne : c.client ≠ d.client := fun e => hd (CacheId.client_injective e.symm)
  simp [hb, hh, (q.busy hx).2.1, hne]

theorem enterTxn_keeps {s : State} {c : CacheId} {x : Txn} (hx : (s.cache c).txn = some x) :
    KeepsDataAndSlots s (enterTxn s c x) := by
  unfold enterTxn
  split
  · exact .refl s
  · rename_i s1 e
    rcases acquireBus_cases s x.client with ⟨-, hfree, e2⟩ | ⟨e1, -, -⟩
    · have hs1 : s1 = s.withBus { s.bus with holder := some x.client } := by rw [e] at e2; exact e2
      subst hs1
      refine KeepsDataAndSlots.trans ?_ (requestWords_keeps _ _ _ _ _)
      rw [cache_withBus]
      split
      · exact takeToken_keeps hx hfree rfl (.of_setLine rfl rfl fun _ _ => rfl) rfl rfl
      · exact takeToken_keeps hx hfree rfl (.of_eq rfl) rfl rfl
    · rw [e] at e1
      cases e1

/-- Completion: ICACHE is left clean and IDLE, a writeback of DCACHE may chain a fill (R150). -/
theorem finishTxn_keeps {s : State} {c : CacheId} {x : Txn} {b : BusToken} (hx : (s.cache c).txn = some x)
    (hh : s.bus.holder = some x.client) (hb : b.holder = none) :
    KeepsDataAndSlots s (finishTxn (s.withBus b) c x) := by
  have done {k : Cache} (hl : KeepsLines c (s.cache c) k) (hc : k.ctrl = .idle) (ht : k.txn = none) :
      KeepsDataAndSlots s ((s.withBus b).setCache c k) :=
    giveToken_keeps hx hh hb hl fun q => .of_idle hc ht (by simp) fun e => hl.clean e (q.clean e).1
  unfold finishTxn
  rw [cache_withBus]
  dsimp only
  split
  · rename_i hi
    have f := giveToken_keeps (k := s.cache c) hx hh hb (.of_eq rfl) fun q => absurd hi (q.busy hx).1
    cases c <;> exact f
  · exact done (.of_setLine rfl rfl fun _ _ => rfl) rfl rfl
  · rename_i hw
    split
    · exact giveToken_keeps hx hh hb (.of_setLine rfl rfl fun _ _ => rfl) fun q =>
        .of_txn rfl (fun e => nomatch e) rfl (by simp [fillTxn]) fun e =>
          nomatch hw.symm.trans (q.icache_fetch (q.busy hx).1 e)
    · exact done (.of_setLine rfl rfl fun _ _ => rfl) rfl rfl
  · exact done (.of_setLine rfl rfl fun _ _ => rfl) rfl rfl

/-- A moved word changes a word of the line or memory; the transaction stays (R149). -/
theorem moveWord_keeps (s : State) (c : CacheId) (x : Txn) (a : Word) : KeepsDataAndSlots s (moveWord s c x a) := by
  unfold moveWord
  dsimp only
  split
  · refine (mapperFetch_keeps s a .word x.client).trans (setCache_lines_keeps ?_ ?_ ?_) <;> rw [cache_mapperFetch]
    · exact .of_setLine rfl List.length_set fun _ h => h
    · rfl
    · rfl
  · exact mapperStore_keeps s a .word _ _

theorem txn_moveWord (s : State) (c : CacheId) (x : Txn) (a : Word) :
    ((moveWord s c x a).cache c).txn = (s.cache c).txn := by
  unfold moveWord
  dsimp only
  split
  · rw [cache_setCache]
    rfl
  · rw [cache_mapperStore]

/-- The count goes on, or the transaction completes as the token is given back (R149, R150). -/
theorem countWord_keeps {s t : State} {c : CacheId} {x : Txn} (hx : (s.cache c).txn = some x)
    (h : countWord s c x = .next t) : KeepsDataAndSlots s t := by
  unfold countWord at h
  dsimp only at h
  have counted : KeepsDataAndSlots s (s.setCache c
      { s.cache c with txn := some { x with next := x.next + 1, remaining := x.remaining - 1 } }) :=
    setCache_keeps (.of_eq rfl) fun q =>
      have ⟨hn, hown, htok⟩ := q.busy hx
      .of_txn rfl hn hown htok fun e => ⟨(q.clean e).1, q.icache_fetch hn e⟩
  split at h
  · obtain ⟨u, hu, h⟩ := andThen_eq_next h
    cases h
    obtain ⟨hh, rfl⟩ := releaseBus_next hu
    exact counted.trans (finishTxn_keeps (by rw [cache_setCache]) hh rfl)
  · cases h
    exact counted

theorem transferWord_keeps {s t : State} {c : CacheId} {x : Txn} (hx : (s.cache c).txn = some x)
    (h : transferWord s c x = .next t) : KeepsDataAndSlots s t := by
  unfold transferWord at h
  dsimp only at h
  split at h
  · have f := pollReady_keeps s
    have hp := cache_pollReady s c
    split at h <;> rename_i u e <;> rw [e] at f hp
    · cases h
      exact f
    · refine (f.trans (moveWord_keeps u c x _)).trans ((retireRequest_keeps _ _).trans (countWord_keeps ?_ h))
      rw [cache_retireRequest, txn_moveWord, hp, hx]
  · cases h

theorem stepCache_keeps {s t : State} {c : CacheId} (h : stepCache s c = .next t) : KeepsDataAndSlots s t := by
  unfold stepCache at h
  split at h
  · cases h
    exact .refl s
  · split at h
    · cases h
      exact .refl s
    · rename_i x hx
      split at h
      · exact transferWord_keeps hx h
      · cases h
        exact enterTxn_keeps hx

/-! ### The external masters -/

/-- A token that goes from an external master or nobody to such leaves the caches in order. -/
theorem withBus_keeps {s : State} {b : BusToken}
    (h : ∀ c : CacheId, b.holder = some c.client ↔ s.bus.holder = some c.client) : KeepsDataAndSlots s (s.withBus b) where
  cfg := rfl
  memory := id
  shape c _ := by rw [cache_withBus]; exact id
  sound q c := by rw [cache_withBus]; exact (q c).of_token (h c)
  pipe := rfl

theorem external_ne_client (id : Nat) (c : CacheId) : some (Client.external id) ≠ some c.client := by
  cases c <;> exact fun e => nomatch e

theorem asHolder_next {s t u : State} {id : Nat} (h : asHolder s id u = .next t) : t = u := by
  unfold asHolder at h
  split at h <;> cases h
  rfl

/-- A master's action is on the token as its own, on memory, or on what no invariant speaks of (R173). -/
theorem masterAct_keeps {s t : State} {a : MasterAction} (h : masterAct s a = .next t) : KeepsDataAndSlots s t := by
  cases a with
  | acquire id =>
    cases h
    rcases acquireBus_cases s (.external id) with ⟨-, hfree, e⟩ | ⟨-, -, e⟩ <;> rw [e]
    · refine withBus_keeps fun c => iff_of_false (external_ne_client id c) ?_
      rcases hfree with h | h <;> rw [h]
      · exact external_ne_client id c
      · exact fun e => nomatch e
    · exact .refl s
  | release id =>
    obtain ⟨hh, rfl⟩ := releaseBus_next h
    exact withBus_keeps fun c => iff_of_false (fun e => nomatch e) (by rw [hh]; exact external_ne_client id c)
  | request id a mode =>
    rw [asHolder_next h]
    exact requestWord_keeps s _
  | ready id a mode =>
    rw [asHolder_next h]
    exact pollReady_keeps s
  | fetchWord id a mode =>
    rw [asHolder_next h]
    split
    · exact (mapperFetch_keeps s a .word _).trans (retireRequest_keeps _ _)
    · exact .refl s
  | storeWord id a v =>
    rw [asHolder_next h]
    split
    · exact (mapperStore_keeps s a .word v _).trans (retireRequest_keeps _ _)
    · exact .refl s

/-! ### Memory, the caches and the token through a step -/

theorem sampleInput_keeps (s : State) : KeepsDataAndSlots s (sampleInput s) := by
  unfold sampleInput
  split
  · exact ⟨.of_same rfl rfl rfl rfl rfl, rfl⟩
  · split <;> exact ⟨.of_same rfl rfl rfl rfl rfl, rfl⟩

/-- Whatever `s` is, every part of a cycle goes from a state that keeps the data of `s` to another. -/
theorem keepsData_keptByParts (s : State) : KeptByParts (KeepsData s) where
  input u k := k.trans (sampleInput_keeps u).toKeepsData
  mark _ _ _ k := k.trans (.of_same rfl rfl rfl rfl rfl)
  exec i _ _ k _ h := k.trans (exec_keeps i h)
  reserved _ _ k _ h := k.trans (reservedWord_keeps h)
  hold _ k := k.trans (.of_same rfl rfl rfl rfl rfl)
  move _ k := k.trans (.of_same rfl rfl rfl rfl rfl)
  fetch u k := k.trans (ifPhase_keeps u)
  cache _ _ _ k h := k.trans (stepCache_keeps h).toKeepsData
  master _ _ _ k h := k.trans (masterAct_keeps h).toKeepsData
  clock _ k := k.trans (.of_same rfl rfl rfl rfl rfl)

theorem step_keepsData {s t : State} (h : step s = .next t) : KeepsData s t :=
  (keepsData_keptByParts s).step (.refl s) h

/-- Settles O56: memory changes only by stores through the Mapper, each of which keeps the canonical form. -/
theorem memoryStaysCanonical : Obligations.MemoryStaysCanonical := fun _ _ hs h => (step_keepsData h).memory hs

/-! ### The slots -/

theorem bubbleClean_bubble : bubbleClean bubbleSnapshot := fun _ => ⟨rfl, rfl⟩

theorem bubbleClean_of_not_bubble {x : Snapshot} (h : x.bubble = false) : bubbleClean x := fun e => by
  rw [h] at e
  cases e

theorem KeepsDataAndSlots.bubbles {s t : State} (f : KeepsDataAndSlots s t) (h : bubblesClean s) : bubblesClean t := by
  unfold bubblesClean
  rw [f.pipe]
  exact h

/-- EX adds records to a slot that is no bubble, and may empty the two younger slots. -/
theorem ExFrame.bubbles {s t : State} (f : ExFrame s t) (hb : s.pipe.ex.bubble = false) (h : bubblesClean s) :
    bubblesClean t := by
  obtain ⟨hfetch, hdec, -, hmem, hwb⟩ := h
  obtain ⟨-, -, hex, -⟩ := f.slotEx
  refine ⟨?_, ?_, bubbleClean_of_not_bubble (hex.trans hb), f.slotMem ▸ hmem, f.slotWb ▸ hwb⟩ <;>
    rcases f.younger with ⟨-, ed, ef⟩ | ⟨ed, ef⟩
  · exact ef ▸ hfetch
  · exact ef ▸ bubbleClean_bubble
  · exact ed ▸ hdec
  · exact ed ▸ bubbleClean_bubble

/-- MEM adds records to a slot that is no bubble. -/
theorem MemFrame.bubbles {s t : State} {b : Bool} (f : MemFrame s { t with intShadow := b })
    (hb : s.pipe.mem.bubble = false) (h : bubblesClean s) : bubblesClean t := by
  obtain ⟨hfetch, hdec, hex, -, hwb⟩ := h
  obtain ⟨-, -, hmem, -⟩ := f.slotMem
  exact ⟨f.slotFetch ▸ hfetch, f.slotDec ▸ hdec, f.slotEx ▸ hex, bubbleClean_of_not_bubble (hmem.trans hb), f.slotWb ▸ hwb⟩

theorem decodeStep_bubbles {d : DecodeOut} {recs : List ExcRecord} {s t : State} (hb : s.pipe.dec.bubble = false)
    (h : bubblesClean s) (e : decodeStep d recs s = .next t) : bubblesClean t := by
  cases e
  obtain ⟨hfetch, -, hex, hmem, hwb⟩ := h
  exact ⟨hfetch, bubbleClean_of_not_bubble hb, hex, hmem, hwb⟩

/-- Entry empties every slot; a commit leaves them. -/
theorem wbStage_bubbles {s t : State} (h : bubblesClean s) (e : wbStage s = .next t) : bubblesClean t := by
  have hc := bubbleClean_bubble
  rcases wbStage_cases s with ⟨r, -, e'⟩ | ⟨-, e'⟩ <;> cases e'.symm.trans e
  · exact ⟨hc, hc, hc, hc, hc⟩
  · unfold bubblesClean
    rw [commit_pipe]
    exact h

/-- The work of a slot that is no bubble keeps every bubble clean. -/
theorem exec_bubbles (i : Instr) {s t : State} (h : bubblesClean s) (e : exec i s = .next t)
    (ha : s.active = .writeback ∧ s.pipe.wb.bubble = false ∨ s.active = .memory ∧ s.pipe.mem.bubble = false ∨
      s.active = .execute ∧ s.pipe.ex.bubble = false ∨ s.active = .decode ∧ s.pipe.dec.bubble = false) :
    bubblesClean t := by
  rcases ha with ⟨ha, -⟩ | ⟨ha, hb⟩ | ⟨ha, hb⟩ | ⟨ha, hb⟩
  · exact wbStage_bubbles h ((exec_writeback i ha).symm.trans e)
  · exact (exec_memory_frame i ha e).bubbles hb h
  · exact (exec_execute_frame i ha e).bubbles hb h
  · exact decodeStep_bubbles hb h ((exec_decode i ha).symm.trans e)

theorem reservedWord_bubbles {s t : State} (h : bubblesClean s) (e : reservedWord s = .next t)
    (ha : s.active = .writeback ∧ s.pipe.wb.bubble = false ∨ s.active = .memory ∧ s.pipe.mem.bubble = false ∨
      s.active = .execute ∧ s.pipe.ex.bubble = false ∨ s.active = .decode ∧ s.pipe.dec.bubble = false) :
    bubblesClean t := by
  rcases ha with ⟨ha, -⟩ | ⟨ha, hb⟩ | ⟨ha, hb⟩ | ⟨ha, hb⟩
  · exact wbStage_bubbles h ((byStage_writeback ha _ _ _ _).symm.trans e)
  · exact (memStep_frame noAccess_frame ((byStage_memory ha _ _ _ _).symm.trans e)).bubbles hb h
  · exact (reservedWord_execute_frame ha e).bubbles hb h
  · exact decodeStep_bubbles hb h ((byStage_decode ha _ _ _ _).symm.trans e)

/-- A fetch fills the IF slot with a word or a bubble. -/
theorem ifPhase_bubbles {s : State} (h : bubblesClean s) : bubblesClean (ifPhase s) := by
  obtain ⟨x, pc, hx, e⟩ := ifPhase_cases s
  obtain ⟨-, hdec, hex, hmem, hwb⟩ := (fetchWord_keeps s s.pc).bubbles h
  rw [e]
  refine ⟨?_, hdec, hex, hmem, hwb⟩
  rcases hx with rfl | hx
  · exact bubbleClean_bubble
  · exact bubbleClean_of_not_bubble hx

theorem bubblesClean_keptByParts : KeptByParts bubblesClean where
  input s h := (sampleInput_keeps s).bubbles h
  mark _ _ _ h := h
  exec i _ _ h ha e := exec_bubbles i h e ha
  reserved _ _ h ha e := reservedWord_bubbles h e ha
  hold _ := fun ⟨hfetch, hdec, hex, hmem, _⟩ => ⟨hfetch, hdec, hex, hmem, bubbleClean_bubble⟩
  move _ := fun ⟨hfetch, hdec, hex, hmem, _⟩ => ⟨bubbleClean_bubble, hfetch, hdec, hex, hmem⟩
  fetch _ h := ifPhase_bubbles h
  cache _ _ _ h e := (stepCache_keeps e).bubbles h
  master _ _ _ h e := (masterAct_keeps e).bubbles h
  clock _ h := h

/-! ### A step's only fault is that of its bounds check -/

/-- The outcome is no fault. -/
def NoFault (o : Out) : Prop := ∀ f, o ≠ .fault f

theorem NoFault.next (s : State) : NoFault (.next s) := fun _ h => nomatch h

theorem NoFault.refused (r : Refusal) : NoFault (.refused r) := fun _ h => nomatch h

theorem NoFault.andThen {o : Out} {k : State → Out} (ho : NoFault o) (hk : ∀ s, NoFault (k s)) :
    NoFault (Machine.andThen o k) := by
  cases o with
  | next s => exact hk s
  | fault f => exact absurd rfl (ho f)
  | refused r => exact .refused r

theorem NoFault.byStage {s : State} {dec ex mem wb : State → Out} (hd : NoFault (dec s)) (he : NoFault (ex s))
    (hm : NoFault (mem s)) (hw : NoFault (wb s)) : NoFault (Machine.byStage s dec ex mem wb) := by
  unfold Machine.byStage
  split
  exacts [hd, he, hm, hw]

theorem exStage_noFault {compute : State → Snapshot → Snapshot} {effect : Snapshot → State → Out} {s : State}
    (he : ∀ x u, NoFault (effect x u)) : NoFault (exStage compute effect s) := by
  rcases exStage_cases compute effect s with ⟨-, e⟩ | ⟨-, e⟩ <;> rw [e]
  · exact he _ _
  · exact .next _

theorem memStep_noFault {isRfe : Bool} {work : State → MemWork} {s : State} : NoFault (memStep isRfe work s) := by
  unfold memStep
  split <;> exact .next _

theorem wbStage_noFault {s : State} : NoFault (wbStage s) := by
  rcases wbStage_cases s with ⟨r, -, e⟩ | ⟨-, e⟩ <;> rw [e] <;> exact .next _

theorem divEffect_noFault (x : Snapshot) (s : State) : NoFault (divEffect x s) := by
  unfold divEffect
  split <;> exact .next _

theorem divuEffect_noFault (x : Snapshot) (s : State) : NoFault (divuEffect x s) := by
  unfold divuEffect
  split <;> exact .next _

theorem mfc0Effect_noFault (n : Nat) (x : Snapshot) (s : State) : NoFault (mfc0Effect n x s) := by
  unfold mfc0Effect
  split
  exacts [.next _, .next _, .refused _]

theorem mtc0Effect_noFault (n : Nat) (x : Snapshot) (s : State) : NoFault (mtc0Effect n x s) := by
  unfold mtc0Effect
  split
  exacts [.next _, .next _, .refused _]

/-- A stage's work answers a next state, or in EX a refusal. -/
theorem exec_noFault (i : Instr) (s : State) : NoFault (exec i s) := by
  cases i <;> refine .byStage (.next _) (exStage_noFault ?_) memStep_noFault wbStage_noFault
  case div => exact divEffect_noFault
  case divu => exact divuEffect_noFault
  case mfc0 n => exact mfc0Effect_noFault n
  case mtc0 n => exact mtc0Effect_noFault n
  case tlbr | tlbwi | tlbwr | tlbp | cop1 | cop2 | cop3 | lwc1 | lwc2 | lwc3 | swc1 | swc2 | swc3 =>
    exact fun _ _ => .refused _
  all_goals exact fun _ _ => .next _

theorem runSlot_noFault (x : Snapshot) (s : State) : NoFault (runSlot x s) := by
  unfold runSlot
  split
  · exact .next s
  · split
    · exact exec_noFault _ s
    · exact .byStage (.next _) (exStage_noFault fun _ _ => .next _) memStep_noFault wbStage_noFault

theorem pipelineCycle_noFault (s : State) : NoFault (pipelineCycle s) := by
  refine (runSlot_noFault _ _).andThen fun t => (runSlot_noFault _ _).andThen fun u => ?_
  unfold afterMem
  split
  · exact .next _
  · exact (runSlot_noFault _ _).andThen fun v => (runSlot_noFault _ _).andThen fun w => .next _

theorem releaseBus_noFault (s : State) (c : Client) : NoFault (releaseBus s c) := by
  unfold releaseBus
  split
  exacts [.next _, .refused _]

theorem countWord_noFault (s : State) (c : CacheId) (x : Txn) : NoFault (countWord s c x) := by
  unfold countWord
  dsimp only
  split
  · exact (releaseBus_noFault _ _).andThen fun _ => .next _
  · exact .next _

theorem stepCache_noFault (s : State) (c : CacheId) : NoFault (stepCache s c) := by
  unfold stepCache
  split
  · exact .next s
  · split
    · exact .next s
    · split
      · unfold transferWord
        dsimp only
        split
        · split
          exacts [.next _, countWord_noFault _ _ _]
        · exact .refused _
      · exact .next _

theorem asHolder_noFault (s : State) (id : Nat) (t : State) : NoFault (asHolder s id t) := by
  unfold asHolder
  split
  exacts [.next _, .refused _]

theorem runMasters_noFault (as : List MasterAction) : ∀ s : State, NoFault (runMasters s as) := by
  induction as with
  | nil => exact fun s => .next s
  | cons a as ih =>
    refine fun s => NoFault.andThen ?_ ih
    cases a with
    | acquire id => exact .next _
    | release id => exact releaseBus_noFault s _
    | request id a mode | ready id a mode | fetchWord id a mode | storeWord id a v => exact asHolder_noFault s id _

theorem cycle_noFault (s : State) : NoFault (cycle s) :=
  (pipelineCycle_noFault _).andThen fun t => (stepCache_noFault t .icache).andThen fun u =>
    (stepCache_noFault u .dcache).andThen fun v => (runMasters_noFault _ v).andThen fun _ => .next _

theorem runCycles_noFault (n : Nat) : ∀ s : State, NoFault (runCycles n s) := by
  induction n with
  | zero => exact fun s => .next s
  | succ n ih =>
    refine fun s => (cycle_noFault s).andThen fun t => ?_
    split
    exacts [ih t, .next t]

theorem step_noFault {s : State} (h : arraysInBounds s = true) : NoFault (step s) := by
  unfold step
  split
  · exact .next s
  · split
    · exact .refused _
    · rw [if_neg (by simp [h])]
      exact runCycles_noFault _ s

/-- Settles O58: every part of a cycle keeps the caches and the token in order and the bubbles clean, and no part changes
the shape of a line array or faults. -/
theorem cachesAndBusStayConsistent : Obligations.CachesAndBusStayConsistent := by
  refine ⟨fun s t hs h => ?_, fun s hs => ⟨fun t h => (step_keepsData h).arrays hs, step_noFault hs⟩⟩
  obtain ⟨hsound, hbubbles⟩ := (cachesConsistent_iff s).mp hs
  exact (cachesConsistent_iff t).mpr ⟨(step_keepsData h).sound hsound, bubblesClean_keptByParts.step hbubbles h⟩

end Sys2Proof.Machine
end

section
/-! O39, O50, O51. What each EX effect writes, and from it who writes the general registers, HI, LO and CP0
(spec/10_state.md R34, R35, R53 to R57, spec/43_system.md R424 to R428, spec/70_reset_and_hazards.md R548). -/

namespace Sys2Proof.Machine

/-! ### The fields an EX effect writes -/

/-- A taken transfer writes the fetch register and the slots (R541). -/
theorem transferIf_writes {taken : Snapshot → Bool} {target : Snapshot → Word} {x : Snapshot} {u v : State}
    (h : transferIf taken target x u = .next v) : v = { u with pc := v.pc, pipe := v.pipe } := by
  unfold transferIf at h
  split at h <;> cases h <;> rfl

/-- A division writes HI and LO, marks its slot and may draw (R328). -/
theorem divEffect_writes {x : Snapshot} {u v : State} (h : divEffect x u = .next v) :
    v = { u with hi := v.hi, lo := v.lo, pipe := v.pipe, draws := v.draws } := by
  unfold divEffect at h
  split at h <;> cases h <;> rfl

theorem divuEffect_writes {x : Snapshot} {u v : State} (h : divuEffect x u = .next v) :
    v = { u with hi := v.hi, lo := v.lo, pipe := v.pipe, draws := v.draws } := by
  unfold divuEffect at h
  split at h <;> cases h <;> rfl

/-- MFC0 writes its slot and may draw (R425). -/
theorem mfc0Effect_writes {n : Nat} {x : Snapshot} {u v : State} (h : mfc0Effect n x u = .next v) :
    v = { u with pipe := v.pipe, draws := v.draws } := by
  unfold mfc0Effect at h
  split at h <;> cases h <;> rfl

/-- MTC0 writes SR as register 12 or Cause as register 13 and marks its slot, or does nothing (R426). -/
theorem mtc0Effect_cases {n : Nat} {x : Snapshot} {u v : State} (h : mtc0Effect n x u = .next v) :
    (n = 12 ∧ v = { u with sr := v.sr, pipe := v.pipe }) ∨ (n = 13 ∧ v = { u with cause := v.cause, pipe := v.pipe }) ∨
      v = u := by
  unfold mtc0Effect at h
  split at h <;> cases h
  · rename_i w hw
    unfold cp0Write at hw
    split at hw
    · cases hw
      exact .inl ⟨‹_›, rfl⟩
    · split at hw
      · cases hw
        exact .inr (.inl ⟨‹_›, rfl⟩)
      · split at hw <;> cases hw
  · exact .inr (.inr rfl)

/-! ### The refused forms -/

/-- An instruction in EX without a record is refused if its effect is. -/
theorem exStage_refused {effect : Snapshot → State → Out} {s : State} {r : Refusal} (hg : exGuard s = true)
    (he : ∀ x u, effect x u = .refused r) : exStage noCompute effect s = .refused r := by
  rcases exStage_cases noCompute effect s with ⟨-, e⟩ | ⟨e, -⟩
  · exact e.trans (he _ _)
  · cases e.symm.trans hg

theorem mfc0Effect_refused {n : Nat} (hn : n ∈ [0, 1, 2, 4, 10]) (x : Snapshot) (s : State) :
    mfc0Effect n x s = .refused .tlbAbstraction := by
  fin_cases hn <;> rfl

theorem mtc0Effect_refused {n : Nat} (hn : n ∈ [0, 1, 2, 4, 10]) (x : Snapshot) (s : State) :
    mtc0Effect n x s = .refused .tlbAbstraction := by
  fin_cases hn <;> rfl

/-- Settles O39: each form's effect is a refusal, and the guard lets it run. -/
theorem refusedForms : Obligations.RefusedForms := by
  intro s base rt n off sub ha hg
  have refused {effect : Snapshot → State → Out} {r : Refusal} (he : ∀ x u, effect x u = .refused r)
      (dec mem wb : State → Out) : byStage s dec (exStage noCompute effect) mem wb = .refused r :=
    (byStage_execute ha _ _ _ _).trans (exStage_refused hg he)
  refine ⟨fun i hi => ?_, fun r hr => ⟨?_, ?_⟩, fun i hi => ?_⟩
  · fin_cases hi <;> exact refused (fun _ _ => rfl) _ _ _
  · exact refused (mfc0Effect_refused hr) _ _ _
  · exact refused (mtc0Effect_refused hr) _ _ _
  · fin_cases hi <;> exact refused (fun _ _ => rfl) _ _ _

/-! ### HI and LO -/

/-- HI differs from `s` to `t` only if `i` is one of its writers, LO only if `i` is one of its own (R34). -/
def HiLoWrittenBy (i : Instr) (s t : State) : Prop :=
  (t.hi ≠ s.hi → ∃ rs rt, i = .mult rs rt ∨ i = .multu rs rt ∨ i = .div rs rt ∨ i = .divu rs rt ∨ i = .mthi rs) ∧
    (t.lo ≠ s.lo → ∃ rs rt, i = .mult rs rt ∨ i = .multu rs rt ∨ i = .div rs rt ∨ i = .divu rs rt ∨ i = .mtlo rs)

theorem HiLoWrittenBy.of_same (i : Instr) {s t : State} (h : sameHiLo s t) : HiLoWrittenBy i s t :=
  ⟨fun e => absurd h.1 e, fun e => absurd h.2 e⟩

/-- EX leaves HI and LO as its effect does. -/
theorem exStage_sameHiLo {compute : State → Snapshot → Snapshot} {effect : Snapshot → State → Out} {s t : State}
    (he : ∀ x u v, effect x u = .next v → sameHiLo u v) (h : exStage compute effect s = .next t) : sameHiLo s t := by
  rcases exStage_cases compute effect s with ⟨-, e⟩ | ⟨-, e⟩
  · have f := he _ _ _ (e.symm.trans h)
    exact f
  · cases e.symm.trans h
    exact ⟨rfl, rfl⟩

/-- EX leaves LO as MTHI, and HI as MTLO, does. -/
theorem exec_mthi_lo {rs : Reg} {s t : State} (ha : s.active = .execute) (h : exec (.mthi rs) s = .next t) : t.lo = s.lo := by
  replace h := (byStage_execute ha _ _ _ _).symm.trans h
  rcases exStage_cases noCompute (fun x t => .next (writeHiLo x.valA t.lo t)) s with ⟨-, e⟩ | ⟨-, e⟩ <;>
    cases e.symm.trans h <;> rfl

theorem exec_mtlo_hi {rs : Reg} {s t : State} (ha : s.active = .execute) (h : exec (.mtlo rs) s = .next t) : t.hi = s.hi := by
  replace h := (byStage_execute ha _ _ _ _).symm.trans h
  rcases exStage_cases noCompute (fun x t => .next (writeHiLo t.hi x.valA t)) s with ⟨-, e⟩ | ⟨-, e⟩ <;>
    cases e.symm.trans h <;> rfl

theorem exec_execute_hiLo (i : Instr) {s t : State} (ha : s.active = .execute) (h : exec i s = .next t) :
    HiLoWrittenBy i s t := by
  cases i
  case mult rs rt | multu rs rt | div rs rt | divu rs rt => exact ⟨fun _ => ⟨rs, rt, by simp⟩, fun _ => ⟨rs, rt, by simp⟩⟩
  case mthi rs => exact ⟨fun _ => ⟨rs, 0, by simp⟩, fun e => absurd (exec_mthi_lo ha h) e⟩
  case mtlo rs => exact ⟨fun e => absurd (exec_mtlo_hi ha h) e, fun _ => ⟨rs, 0, by simp⟩⟩
  all_goals
    replace h := (byStage_execute ha _ _ _ _).symm.trans h
    refine .of_same _ (exStage_sameHiLo (fun x u v e => ?_) h)
  case jr | jalr | bltz | bgez | bltzal | bgezal | j | jal | beq | bne | blez | bgtz =>
    rw [transferIf_writes e]
    exact ⟨rfl, rfl⟩
  case mfc0 =>
    rw [mfc0Effect_writes e]
    exact ⟨rfl, rfl⟩
  case mtc0 => rcases mtc0Effect_cases e with ⟨-, e⟩ | ⟨-, e⟩ | e <;> rw [e] <;> exact ⟨rfl, rfl⟩
  case tlbr | tlbwi | tlbwr | tlbp | cop1 | cop2 | cop3 | lwc1 | lwc2 | lwc3 | swc1 | swc2 | swc3 => cases e
  all_goals
    cases e
    exact ⟨rfl, rfl⟩

/-! ### The general registers -/

/-- r0 is no destination (R533). -/
theorem destReg_ne_zero {d : Selector} {r : Reg} (h : d.destReg = some r) : r ≠ 0 := by
  cases d with
  | reg q =>
    simp only [Selector.destReg, Option.ite_none_left_eq_some, Option.some.injEq] at h
    exact h.2 ▸ h.1
  | returnAddress => cases h; decide
  | none => cases h

/-- WB changes a general register by a commit alone, and only the destination (R548). -/
theorem wbStage_gpr {s t : State} (h : wbStage s = .next t) {r : Reg} (hr : readGpr t r ≠ readGpr s r) :
    s.pipe.wb.exc = [] ∧ s.pipe.wb.dest.destReg = some r ∧ readGpr t r = s.pipe.wb.result := by
  rcases wbStage_cases s with ⟨x, -, e⟩ | ⟨hexc, e⟩ <;> cases e.symm.trans h
  · exact absurd rfl hr
  · have hread := readGpr_commit s s.pipe.wb r
    cases hd : s.pipe.wb.dest.destReg with
    | none => exact absurd (hread.trans (by rw [hd])) hr
    | some q =>
      rw [hd] at hread
      by_cases hq : r = q
      · subst hq
        exact ⟨hexc, rfl, hread.trans (by simp [destReg_ne_zero hd])⟩
      · exact absurd (hread.trans (by simp [hq])) hr

theorem wbStage_sameHiLo {s t : State} (h : wbStage s = .next t) : sameHiLo s t := by
  rcases wbStage_cases s with ⟨x, -, e⟩ | ⟨-, e⟩ <;> cases e.symm.trans h
  · exact ⟨rfl, rfl⟩
  · exact ⟨commit_hi s _, commit_lo s _⟩

/-- Settles O50: ID and MEM keep the register file, HI and LO, EX keeps the register file, WB keeps HI and LO. -/
theorem registerWriters : Obligations.RegisterWriters := by
  intro i s t h
  have noGpr (e : t.gpr = s.gpr) {P : Reg → Prop} :
      ∀ r, readGpr t r ≠ readGpr s r → P r := fun r hr => absurd (readGpr_congr e r) hr
  have noHiLo (e : sameHiLo s t) {P Q : Prop} : (t.hi ≠ s.hi → P) ∧ (t.lo ≠ s.lo → Q) :=
    ⟨fun n => absurd e.1 n, fun n => absurd e.2 n⟩
  cases ha : s.active with
  | decode =>
    cases show decodeStep _ _ s = .next t from (exec_decode i ha).symm.trans h
    exact ⟨noGpr rfl, noHiLo ⟨rfl, rfl⟩⟩
  | execute =>
    obtain ⟨hhi, hlo⟩ := exec_execute_hiLo i ha h
    exact ⟨noGpr (exec_execute_frame i ha h).gpr, fun n => ⟨rfl, hhi n⟩, fun n => ⟨rfl, hlo n⟩⟩
  | memory =>
    have f := exec_memory_frame i ha h
    exact ⟨noGpr f.gpr, noHiLo ⟨f.hi, f.lo⟩⟩
  | writeback =>
    have hw := (exec_writeback i ha).symm.trans h
    exact ⟨fun r hr => ⟨rfl, wbStage_gpr hw hr⟩, noHiLo (wbStage_sameHiLo hw)⟩

/-! ### SR, Cause, EPC and BadVAddr -/

/-- SR differs from `s` to `t` only if `i` is RFE or MTC0 of 12, Cause only if it is MTC0 of 13 (R53, R55, R424). -/
def StatusWrittenBy (i : Instr) (s t : State) : Prop :=
  (t.sr ≠ s.sr → i = .rfe ∨ ∃ rt, i = .mtc0 rt 12) ∧ (t.cause ≠ s.cause → ∃ rt, i = .mtc0 rt 13)

theorem StatusWrittenBy.of_same (i : Instr) {s t : State} (h : t.sr = s.sr ∧ t.cause = s.cause) : StatusWrittenBy i s t :=
  ⟨fun e => absurd h.1 e, fun e => absurd h.2 e⟩

/-- EX writes SR and Cause only as its effect does. -/
theorem exStage_status {compute : State → Snapshot → Snapshot} {effect : Snapshot → State → Out} {i : Instr} {s t : State}
    (he : ∀ x u v, effect x u = .next v → StatusWrittenBy i u v) (h : exStage compute effect s = .next t) :
    StatusWrittenBy i s t := by
  rcases exStage_cases compute effect s with ⟨-, e⟩ | ⟨-, e⟩
  · have f := he _ _ _ (e.symm.trans h)
    exact f
  · cases e.symm.trans h
    exact .of_same i ⟨rfl, rfl⟩

theorem mtc0Effect_status {rt : Reg} {n : Nat} {x : Snapshot} {u v : State} (h : mtc0Effect n x u = .next v) :
    StatusWrittenBy (.mtc0 rt n) u v := by
  rcases mtc0Effect_cases h with ⟨rfl, e⟩ | ⟨rfl, e⟩ | rfl
  · exact ⟨fun _ => .inr ⟨rt, rfl⟩, fun n => absurd (by rw [e]) n⟩
  · exact ⟨fun n => absurd (by rw [e]) n, fun _ => ⟨rt, rfl⟩⟩
  · exact .of_same _ ⟨rfl, rfl⟩

theorem exec_execute_status (i : Instr) {s t : State} (ha : s.active = .execute) (h : exec i s = .next t) :
    StatusWrittenBy i s t := by
  cases i <;> replace h := (byStage_execute ha _ _ _ _).symm.trans h <;> refine exStage_status (fun x u v e => ?_) h
  case rfe =>
    cases e
    exact ⟨fun _ => .inl rfl, fun n => absurd rfl n⟩
  case mtc0 => exact mtc0Effect_status e
  all_goals refine .of_same _ ?_
  case jr | jalr | bltz | bgez | bltzal | bgezal | j | jal | beq | bne | blez | bgtz =>
    rw [transferIf_writes e]
    exact ⟨rfl, rfl⟩
  case div =>
    rw [divEffect_writes e]
    exact ⟨rfl, rfl⟩
  case divu =>
    rw [divuEffect_writes e]
    exact ⟨rfl, rfl⟩
  case mfc0 =>
    rw [mfc0Effect_writes e]
    exact ⟨rfl, rfl⟩
  case tlbr | tlbwi | tlbwr | tlbp | cop1 | cop2 | cop3 | lwc1 | lwc2 | lwc3 | swc1 | swc2 | swc3 => cases e
  all_goals
    cases e
    exact ⟨rfl, rfl⟩

/-- WB writes no CP0 register unless the instruction holds a record. -/
theorem wbStage_cp0 {s t : State} (h : wbStage s = .next t) :
    s.pipe.wb.exc ≠ [] ∨ (t.sr = s.sr ∧ t.cause = s.cause ∧ t.epc = s.epc ∧ t.badVAddr = s.badVAddr) := by
  rcases wbStage_cases s with ⟨r, hr, -⟩ | ⟨-, e⟩
  · refine .inl fun e => ?_
    rw [e] at hr
    cases hr
  · cases e.symm.trans h
    exact .inr ⟨commit_sr s _, commit_cause s _, commit_epc s _, commit_badVAddr s _⟩

/-- Settles O51: ID and MEM keep CP0, EX keeps EPC and BadVAddr, WB without a record keeps CP0. -/
theorem cp0Writers : Obligations.Cp0Writers := by
  intro i s t h
  have noCp0 (e : t.sr = s.sr ∧ t.cause = s.cause ∧ t.epc = s.epc ∧ t.badVAddr = s.badVAddr) {P Q R S : Prop} :
      (t.sr ≠ s.sr → P) ∧ (t.cause ≠ s.cause → Q) ∧ (t.epc ≠ s.epc → R) ∧ (t.badVAddr ≠ s.badVAddr → S) :=
    have ⟨hsr, hcause, hepc, hbad⟩ := e
    ⟨fun n => absurd hsr n, fun n => absurd hcause n, fun n => absurd hepc n, fun n => absurd hbad n⟩
  cases ha : s.active with
  | decode =>
    cases show decodeStep _ _ s = .next t from (exec_decode i ha).symm.trans h
    exact noCp0 ⟨rfl, rfl, rfl, rfl⟩
  | execute =>
    have f := exec_execute_frame i ha h
    obtain ⟨hsr, hcause⟩ := exec_execute_status i ha h
    exact ⟨fun n => .inr ⟨rfl, hsr n⟩, fun n => .inr ⟨rfl, hcause n⟩, fun n => absurd f.epc n, fun n => absurd f.badVAddr n⟩
  | memory =>
    have f := exec_memory_frame i ha h
    exact noCp0 ⟨f.sr, f.cause, f.epc, f.badVAddr⟩
  | writeback =>
    rcases wbStage_cp0 ((exec_writeback i ha).symm.trans h) with he | e
    · exact ⟨fun _ => .inl ⟨rfl, he⟩, fun _ => .inl ⟨rfl, he⟩, fun _ => ⟨rfl, he⟩, fun _ => ⟨rfl, he⟩⟩
    · exact noCp0 e

end Sys2Proof.Machine
end

section
/-! O36, O37. MFC0 and MTC0 alone in the pipeline (spec/43_system.md R425, R426): what each effect makes of the EX
snapshot, and what the commit then leaves. -/

namespace Sys2Proof.Machine

/-! ### Words put together from bit ranges -/

/-- Cause reads as its stored fields around the live pins (R54). -/
theorem readCause_eq_append (s : State) :
    readCause s = s.cause.extractLsb' 16 16 ++ s.env.pins ++ s.cause.extractLsb' 0 10 := by
  have hm : ∀ i < 32, (0xFFFF03FF#32).getLsbD i = (decide (i < 10) || decide (16 ≤ i)) := by decide
  unfold readCause
  apply BitVec.eq_of_getLsbD_eq
  intro i hi
  simp only [BitVec.getLsbD_or, BitVec.getLsbD_and, hm i hi, BitVec.getLsbD_shiftLeft, BitVec.getLsbD_append,
    BitVec.getLsbD_extractLsb', BitVec.truncate_eq_setWidth, BitVec.getLsbD_setWidth]
  by_cases h1 : i < 10
  · simp [h1]
  · by_cases h2 : i < 16
    · simp [h1, hi, show i - 10 < 6 by omega, show ¬ 16 ≤ i by omega, show i - 10 < 32 by omega]
    · simp [h1, hi, BitVec.getLsbD_of_ge s.env.pins (i - 10) (by omega), show 16 ≤ i by omega,
        show ¬ i - 10 < 6 by omega, show i - 10 - 6 < 16 by omega, show 16 + (i - 10 - 6) = i by omega]

theorem causeWritten_eq_append (cause v : Word) :
    (cause &&& 0xFFFFFCFF#32) ||| (v &&& 0x00000300#32) =
      cause.extractLsb' 10 22 ++ v.extractLsb' 8 2 ++ cause.extractLsb' 0 8 := by
  have hm : ∀ i < 32, (0xFFFFFCFF#32).getLsbD i = (decide (i < 8) || decide (10 ≤ i)) := by decide
  have hm' : ∀ i < 32, (0x00000300#32).getLsbD i = (decide (8 ≤ i) && decide (i < 10)) := by decide
  apply BitVec.eq_of_getLsbD_eq
  intro i hi
  simp only [BitVec.getLsbD_or, BitVec.getLsbD_and, hm i hi, hm' i hi, BitVec.getLsbD_append,
    BitVec.getLsbD_extractLsb']
  by_cases h1 : i < 8
  · simp [h1, show ¬ 8 ≤ i by omega]
  · by_cases h2 : i < 10
    · simp [h1, h2, show 8 ≤ i by omega, show ¬ 10 ≤ i by omega, show i - 8 < 2 by omega, show 8 + (i - 8) = i by omega]
    · simp [h1, h2, show 10 ≤ i by omega, show ¬ i - 8 < 2 by omega, show i - 8 - 2 < 22 by omega,
        show 10 + (i - 8 - 2) = i by omega]

/-! ### What a commit leaves -/

/-- A commit of WB alone changes no more than a general register, the end of the run and the shadow. -/
theorem commit_atWb_same (s : State) (y : Snapshot) :
    let t := commit (atWb { s with intShadow := false } y) y
    sameHiLo s t ∧ sameCp0 s t ∧ sameMemory s t ∧ sameCaches s t ∧ sameRun s t ∧ committed s t y.pc := by
  intro t
  exact ⟨⟨commit_hi _ _, commit_lo _ _⟩,
    ⟨commit_sr _ _, readCause_congr (commit_cause _ _) (commit_env _ _), commit_cause _ _, commit_epc _ _, commit_badVAddr _ _⟩,
    ⟨fun a => congrArg (Memory.read · a) (commit_mem _ _), commit_devLog _ _⟩,
    ⟨commit_icache _ _, commit_dcache _ _, commit_bus _ _, commit_requests _ _, commit_env _ _⟩,
    ⟨commit_cycle _ _, commit_loadUseEvents _ _, commit_draws _ _, commit_cfg _ _, commit_pc _ _⟩,
    commit_halted _ _, commit_intShadow _ _⟩

/-- The commit of an instruction alone whose destination is `rt`: that register, and nothing else. -/
theorem commit_onlyGpr (s : State) {y : Snapshot} {rt : Reg} (hd : y.dest = .reg rt) :
    let t := commit (atWb { s with intShadow := false } y) y
    gets t rt y.result ∧ onlyGpr rt s t y.pc := by
  intro t
  have hread := readGpr_commit (atWb { s with intShadow := false } y) y
  refine ⟨?_, fun q hq => (hread q).trans ?_, commit_atWb_same s y⟩
  · by_cases h0 : rt = 0
    · subst h0
      rfl
    · exact (hread rt).trans (by simp [hd, Selector.destReg, h0])
  · by_cases h0 : rt = 0 <;> simp [hd, Selector.destReg, h0, hq] <;> rfl

/-- The commit of an instruction alone without a destination: nothing but the end of the run and the shadow. -/
theorem commit_onlyCp0 (s : State) {y : Snapshot} (hd : y.dest = .none) :
    let t := commit (atWb { s with intShadow := false } y) y
    sameCp0 s t ∧ t.intShadow = false ∧ onlyCp0 s t y.pc := by
  intro t
  have hread := readGpr_commit (atWb { s with intShadow := false } y) y
  obtain ⟨hhilo, hcp0, hmem, hcaches, hrun, hhalt, hshadow⟩ := commit_atWb_same s y
  exact ⟨hcp0, hshadow, fun q => (hread q).trans (by rw [hd]; rfl), hhilo, hmem, hcaches, hrun, hhalt⟩

/-! ### The passages -/

/-- Coprocessor 0 is usable in kernel mode or by its bit of SR (R420). -/
theorem copCheck_usable {s : State} (h : s.userMode = false ∨ s.copUsable 0#2 = true) : copCheck s (some 0#2) = [] := by
  rcases h with h | h <;> simp [copCheck, copAllowed, h]

/-- The snapshot that `i`, alone at `p`, executes with once its check in ID has passed. -/
def executing (i : Instr) (s : State) (p : Word) : Snapshot := valued s (idSnapshot p (encode i) (decodeOut i) [])

/-- MFC0 alone commits the value its effect makes the result. -/
theorem mfc0_runsTo {s s' : State} {p : Word} {rt : Reg} {n : Nat} {v : Word}
    (hc : s.userMode = false ∨ s.copUsable 0#2 = true) (hn : noInterrupt s')
    (hf : ∀ x, mfc0Effect n x (atEx s x) = .next (atEx s' { x with result := v })) :
    ∃ t, runsTo (.mfc0 rt n) s p t ∧ gets t rt v ∧ onlyGpr rt s' t p :=
  ⟨_, passAlone_commits (copCheck_usable hc) (resolved_id s p _ _ []) rfl (hf _) rfl (.inr hn),
    commit_onlyGpr s' (rt := rt) rfl⟩

/-- Settles O36: each number's effect is the read of its register, or a draw. -/
theorem mfc0Reads : Obligations.Mfc0Reads := by
  intro s p rt n hc hn
  refine ⟨fun c h => ?_, fun h => ?_⟩
  · rw [← readCause_eq_append] at h
    fin_cases h <;> exact mfc0_runsTo (s' := s) hc hn fun _ => rfl
  · simp only [List.mem_cons, List.not_mem_nil, or_false, not_or] at h
    obtain ⟨h0, h1, h2, h4, h8, h10, h12, h13, h14, h15⟩ := h
    have hf : ∀ x, mfc0Effect n x (atEx s x) = .next (atEx (s.drew 1) { x with result := Config.freeWord s.draws }) := by
      intro x
      simp only [mfc0Effect, cp0Read, h0, h1, h2, h4, h8, h10, h12, h13, h14, h15, if_false, or_false]
      rfl
    obtain ⟨t, hr, hg, ho⟩ := mfc0_runsTo (s' := s.drew 1) hc hn hf
    have hd : t.draws = s.draws + 1 := by
      obtain ⟨-, -, -, -, -, ⟨-, -, hd, -⟩, -⟩ := ho
      exact hd
    exact ⟨t, hr, hg, hd, by rw [hd]; exact ho⟩

/-- MTC0 alone commits what its effect makes of the state, and writes no general register. -/
theorem mtc0_runsTo {s s' : State} {p : Word} {rt : Reg} {n : Nat} {b : Bool}
    (hc : s.userMode = false ∨ s.copUsable 0#2 = true) (hn : b = true ∨ noInterrupt s')
    (hf : mtc0Effect n (executing (.mtc0 rt n) s p) (atEx s (executing (.mtc0 rt n) s p)) =
      .next (atEx s' { executing (.mtc0 rt n) s p with exSideEffect := b })) :
    ∃ t, runsTo (.mtc0 rt n) s p t ∧ sameCp0 s' t ∧ t.intShadow = false ∧ onlyCp0 s' t p :=
  ⟨_, passAlone_commits (copCheck_usable hc) (resolved_id s p _ _ []) rfl hf rfl hn, commit_onlyCp0 s' rfl⟩

/-- Settles O37: each number's effect is the write of its register, marked so that no interrupt is sampled, or nothing. -/
theorem mtc0Writes : Obligations.Mtc0Writes := by
  intro s p rt n hc v
  refine ⟨?_, ?_, fun hn h => ?_⟩
  · obtain ⟨t, hr, ⟨hsr, -, hcause, hepc, hbad⟩, hshadow, ho⟩ :=
      mtc0_runsTo (p := p) (rt := rt) (n := 12) (s' := { s with sr := v &&& srWriteMask }) hc (.inl rfl) rfl
    exact ⟨t, hr, hsr, hcause, hepc, hbad, hshadow, ho⟩
  · obtain ⟨t, hr, ⟨hsr, -, hcause, hepc, hbad⟩, hshadow, ho⟩ :=
      mtc0_runsTo (p := p) (rt := rt) (n := 13)
        (s' := { s with cause := (s.cause &&& 0xFFFFFCFF#32) ||| (v &&& 0x00000300#32) }) hc (.inl rfl) rfl
    exact ⟨t, hr, hcause.trans (causeWritten_eq_append _ _), hsr, hepc, hbad, hshadow, ho⟩
  · simp only [List.mem_cons, List.not_mem_nil, or_false, not_or] at h
    obtain ⟨h0, h1, h2, h4, h10, h12, h13⟩ := h
    refine mtc0_runsTo (b := false) hc (.inr hn) ?_
    simp only [mtc0Effect, cp0Write, h0, h1, h2, h4, h10, h12, h13, if_false, or_false]
    rfl

end Sys2Proof.Machine
end

section
/-! O44, O55, O59. What a cycle and a step are made of (spec/70_reset_and_hazards.md R530 to R532, R548), and the state
at reset (spec/10_state.md R71). -/

namespace Sys2Proof.Machine

/-! ### The fetch of an instruction word -/

/-- A byte of a word put back in its place. -/
theorem getLsbD_byteOf_shifted (w : Word) (k i : Nat) (hi : i < 32) :
    ((byteOf w k).zeroExtend 32 <<< (8 * k)).getLsbD i = (w.getLsbD i && decide (8 * k ≤ i ∧ i < 8 * k + 8)) := by
  by_cases h1 : 8 * k ≤ i
  · have hj : 8 * k + (i - 8 * k) = i := by omega
    by_cases h2 : i < 8 * k + 8
    · simp [byteOf, hi, h1, h2, hj, show i - 8 * k < 8 by omega]
    · simp [byteOf, h2, show ¬ i - 8 * k < 8 by omega]
  · simp [h1]

/-- The four bytes of a word in their places are the word. -/
theorem bytes_or_eq (w : Word) :
    ((byteOf w 3).zeroExtend 32 <<< (8 * 3)) ||| (((byteOf w 2).zeroExtend 32 <<< (8 * 2)) |||
      (((byteOf w 1).zeroExtend 32 <<< (8 * 1)) ||| ((byteOf w 0).zeroExtend 32 <<< (8 * 0)))) = w := by
  apply BitVec.eq_of_getLsbD_eq
  intro i hi
  simp only [BitVec.getLsbD_or, getLsbD_byteOf_shifted w _ i hi, ← Bool.and_or_distrib_left, ← Bool.decide_or]
  rw [decide_eq_true (by omega), Bool.and_true]

/-- A byte of a word below the bytes above it. -/
theorem byteOf_or_shiftLeft (w : Word) (k : Nat) :
    (byteOf w k).zeroExtend 32 ||| ((w >>> (8 * (k + 1))) <<< 8) = w >>> (8 * k) := by
  apply BitVec.eq_of_getLsbD_eq
  intro i hi
  simp only [byteOf, BitVec.truncate_eq_setWidth, BitVec.getLsbD_or, BitVec.getLsbD_setWidth, BitVec.getLsbD_extractLsb',
    BitVec.getLsbD_shiftLeft, BitVec.getLsbD_ushiftRight, hi]
  by_cases h : i < 8
  · simp [h]
  · simp [h, show 8 * (k + 1) + (i - 8) = 8 * k + i by omega]

theorem valueLittle_bytes (w : Word) : valueLittle [byteOf w 0, byteOf w 1, byteOf w 2, byteOf w 3] = w := by
  have top : w >>> (8 * (3 + 1)) = 0#32 := BitVec.ushiftRight_eq_zero (Nat.le_refl 32)
  simp only [valueLittle]
  rw [← top, byteOf_or_shiftLeft w 3, byteOf_or_shiftLeft w 2, byteOf_or_shiftLeft w 1, byteOf_or_shiftLeft w 0]
  exact BitVec.ushiftRight_zero w

/-- The bytes of a word, in either order, are the word's value again (R112). -/
theorem valueOfBytes_bytesOfWord (e : Endian) (w : Word) : valueOfBytes e (bytesOfWord e w) = w := by
  cases e
  · simpa [valueOfBytes, bytesOfWord, valueBig] using bytes_or_eq w
  · exact valueLittle_bytes w

theorem aligned_word_of_mod {a : Word} (h : a.toNat % 4 = 0) : aligned a .word = true := by
  have : a &&& 3#32 = 0#32 := by
    apply BitVec.eq_of_toNat_eq
    rw [BitVec.toNat_and]
    exact (Nat.and_two_pow_sub_one_eq_mod a.toNat 2).trans h
  simp [aligned, this]

/-- An uncached word of memory at an aligned address is fetched as its bytes give it. -/
theorem fetchWord_memory {s : State} {va pa : Word} (hv : aligned va .word = true) (hr : reaches s va .fetch pa false)
    (hp : aligned pa .word = true) (hd : isDevice s.cfg pa = false) : fetchWord s va = .word (memoryValue s pa .word) s := by
  have hr : addressTranslate s va va .fetch = { pa := some pa, cacheable := false, recs := [] } := hr
  simp [fetchWord, hr, alignCheck_aligned hv, mapperError_aligned hp, mapperFetch_memory hd]

theorem ifPhase_memory {s : State} {pa w : Word} (hv : s.pc.toNat % 4 = 0) (hr : reaches s s.pc .fetch pa false)
    (hp : aligned pa .word = true) (hd : isDevice s.cfg pa = false)
    (hw : s.mem.readBytes pa 4 = bytesOfWord s.cfg.endian w) :
    ifPhase s = fillFetch s { pc := s.pc, instr := w, bubble := false } := by
  have hval : memoryValue s pa .word = w := (congrArg _ hw).trans (valueOfBytes_bytesOfWord _ w)
  unfold ifPhase
  rw [fetchWord_memory (aligned_word_of_mod hv) hr hp hd, hval]

/-! ### The work of a slot -/

theorem runSlot_bubble {x : Snapshot} (h : x.bubble = true) (s : State) : runSlot x s = .next s := by
  simp [runSlot, h]

theorem runSlot_instr {x : Snapshot} {i : Instr} (h : x.bubble = false) (hi : decode x.instr = .ok i) (s : State) :
    runSlot x s = exec i s := by
  simp [runSlot, h, hi]

theorem runSlot_reserved {x : Snapshot} {r : Reserved} (h : x.bubble = false) (hr : decode x.instr = .error r) (s : State) :
    runSlot x s = reservedWord s := by
  simp [runSlot, h, hr]

/-! ### The step -/

theorem step_runs {s : State} (hh : s.halted = false) (hp : s.cfg.wellFormed = true) (ha : arraysInBounds s = true) :
    step s = runCycles 64 s := by
  simp [step, hh, hp, ha, Config.stepCycles]

theorem andThen_next_right (o : Out) : andThen o .next = o := by
  cases o <;> rfl

/-- With an instruction in WB the first cycle is the last. -/
theorem runCycles_busy {s : State} (h : s.pipe.wb.bubble = false) (n : Nat) : runCycles (n + 1) s = cycle s := by
  simp [runCycles, h, andThen_next_right]

theorem sampleInput_tape {s : State} {x : CycleInput} {rest : List CycleInput} (h : s.env.tape = x :: rest) :
    sampleInput s = { s with env := { s.env with pins := x.pins, masters := x.masters, tape := rest } } := by
  simp [sampleInput, h]

theorem sampleInput_quiet {s : State} (h : s.env.tape = []) (hq : s.env.quiet = true) :
    sampleInput s = { s with env := { s.env with masters := [] } } := by
  simp [sampleInput, h, hq]

theorem sampleInput_free {s : State} (h : s.env.tape = []) (hq : s.env.quiet = false) :
    sampleInput s = { s with env :=
      { s.env with pins := (Config.freeInput s.cycle).pins, masters := (Config.freeInput s.cycle).masters } } := by
  simp [sampleInput, h, hq]

/-- Settles O44: the fetched bytes are the word encoded, a slot runs what its word decodes to, and the rest is how the
cycle and the step are defined. -/
theorem stepRunsDecoded : Obligations.StepRunsDecoded := by
  refine ⟨fun s pa i _ hv hr hp hd hw => ifPhase_memory hv hr hp hd hw, fun x i s hb hi => runSlot_instr hb hi s,
    fun x s hb => runSlot_bubble hb s, fun x r s hb hr => runSlot_reserved hb hr s, fun s => rfl, fun s => rfl,
    fun s hh hp ha hb => (step_runs hh hp ha).trans (runCycles_busy hb 63), fun s hh hp ha => step_runs hh hp ha,
    fun s => rfl, fun n s => ?_, fun s => rfl, fun s x rest h => sampleInput_tape h, fun s h hq => sampleInput_quiet h hq,
    fun s h hq => sampleInput_free h hq, fun s => rfl, fun s m ms => rfl, fun s hh => by simp [step, hh]⟩
  simp [runCycles]

/-! ### Reset -/

theorem resetLines_empty (g : Geometry) : ∀ l ∈ resetLines g, l.valid = false ∧ l.dirty = false ∧ l.lastAccess = 0 := by
  intro l hl
  rw [List.eq_of_mem_replicate hl]
  exact ⟨rfl, rfl, rfl⟩

/-- No lookup finds a line in a cache without a valid one. -/
theorem lookupFrom_none {k : Cache} (h : ∀ l ∈ k.lines, l.valid = false) (g : Geometry) (pa : Word) (n : Nat) :
    ∀ w, lookupFrom k g pa w n = none := by
  have hv : ∀ w i, (k.line g w i).valid = false := by
    intro w i
    unfold Cache.line
    by_cases hb : g.slot w i < k.lines.length
    · rw [List.getD_eq_getElem _ _ hb]
      exact h _ (List.getElem_mem hb)
    · rw [List.getD_eq_default _ _ (Nat.le_of_not_lt hb)]
  induction n with
  | zero => exact fun w => rfl
  | succ n ih => exact fun w => by simp [lookupFrom, CacheLine.hits, hv, ih]

/-- IP[7:2] reads as the live pins (R54). -/
theorem readCause_pins (s : State) : (readCause s).extractLsb' 10 6 = s.env.pins := by
  rw [readCause_eq_append, extract_above (Nat.le_refl 10), extract_within (by decide), BitVec.extractLsb'_eq_self]

theorem readCause_resetOf (p : Params) : readCause (State.resetOf p) = 0#32 := by
  simp [readCause, State.resetOf]

theorem lookup_resetOf (p : Params) (c : CacheId) (pa : Word) : lookup (State.resetOf p) c pa = none := by
  cases c <;> exact lookupFrom_none (fun l hl => (resetLines_empty _ l hl).1) _ _ _ _

theorem lines_resetOf (p : Params) : ∀ l ∈ (State.resetOf p).icache.lines ++ (State.resetOf p).dcache.lines,
    l.valid = false ∧ l.dirty = false ∧ l.lastAccess = 0 := fun l hl =>
  (List.mem_append.mp hl).elim (resetLines_empty _ l) (resetLines_empty _ l)

/-- Settles O55: the lines of both caches are `resetLines`, every other value is written out in `State.resetOf`. -/
theorem resetState : Obligations.ResetState := by
  intro p s
  obtain ⟨hbev, hkuc, hiec, hswc, hisc, hzero⟩ : (0x00400000#32).getLsbD 22 = true ∧ (0x00400000#32).getLsbD 1 = false ∧
      (0x00400000#32).getLsbD 0 = false ∧ (0x00400000#32).getLsbD 17 = false ∧ (0x00400000#32).getLsbD 16 = false ∧
      0x00400000#32 &&& 0x0FBC00C0#32 = 0#32 := by decide
  have hcause : readCause s &&& 0xCFFF0083#32 = 0#32 := by rw [readCause_resetOf]; decide
  exact ⟨rfl, rfl, rfl, rfl, hbev, hkuc, hiec, hswc, hisc, hzero, hcause, readCause_pins s, rfl, lookup_resetOf p,
    lines_resetOf p, List.length_replicate, List.length_replicate, rfl, rfl, rfl, rfl, rfl, rfl, rfl, rfl, rfl, rfl, rfl⟩

theorem arraysInBounds_resetOf (p : Params) : arraysInBounds (State.resetOf p) = true := by
  have shape (g : Geometry) (k : Cache) (h : k.lines = resetLines g) : cacheShape g k = true := by
    simp [cacheShape, h, resetLines, Geometry.words]
  simp only [arraysInBounds, Bool.and_eq_true, Bool.or_eq_true]
  exact ⟨.inr (shape _ _ rfl), .inr (shape _ _ rfl)⟩

/-- Settles O59: reset's caches are IDLE, without a transaction or the token, their lines clean; every slot is the
bubble. -/
theorem invariantsAtReset : Obligations.InvariantsAtReset := by
  refine ⟨Memory.wf_reset _, ⟨rfl, rfl, rfl⟩, (cachesConsistent_iff _).mpr ⟨fun c => ?_, ?_⟩, arraysInBounds_resetOf _⟩
  · cases c <;> exact .of_idle rfl rfl (fun e => nomatch e) fun _ l hl => (resetLines_empty _ l hl).2.1
  · exact ⟨bubbleClean_bubble, bubbleClean_bubble, bubbleClean_bubble, bubbleClean_bubble, bubbleClean_bubble⟩

end Sys2Proof.Machine
end

section
/-! O29, O31. Which way a lookup and a miss choose (spec/20_memory.md R141, R143), and who gets the bus token (R170 to
R172). -/

namespace Sys2Proof.Machine

/-! ### Lookup -/

theorem CacheLine.hits_iff {l : CacheLine} {g : Geometry} {pa : Word} :
    l.hits g pa = true ↔ l.valid = true ∧ l.tag = g.tag pa := by
  simp [CacheLine.hits]

/-- The search from way `w` finds the lowest way from there on whose line hits. -/
theorem lookupFrom_eq_some (k : Cache) (g : Geometry) (pa : Word) (n : Nat) : ∀ w v : Nat,
    lookupFrom k g pa w n = some v ↔ w ≤ v ∧ v < w + n ∧ (k.line g v (g.index pa)).hits g pa = true ∧
      ∀ u, w ≤ u → u < v → ¬ (k.line g u (g.index pa)).hits g pa = true := by
  induction n with
  | zero =>
    intro w v
    exact ⟨fun h => (nomatch h), fun ⟨h1, h2, _⟩ => by omega⟩
  | succ n ih =>
    intro w v
    unfold lookupFrom
    split
    · rename_i hit
      constructor
      · rintro ⟨⟩
        exact ⟨Nat.le_refl w, by omega, hit, fun u h1 h2 => by omega⟩
      · rintro ⟨h1, -, -, hlow⟩
        rcases Nat.eq_or_lt_of_le h1 with rfl | hlt
        · rfl
        · exact absurd hit (hlow w (Nat.le_refl w) hlt)
    · rename_i miss
      rw [ih (w + 1) v]
      constructor
      · rintro ⟨h1, h2, hit, hlow⟩
        refine ⟨by omega, by omega, hit, fun u hu huv => ?_⟩
        rcases Nat.eq_or_lt_of_le hu with rfl | hlt
        · exact miss
        · exact hlow u hlt huv
      · rintro ⟨h1, h2, hit, hlow⟩
        have : w ≠ v := by rintro rfl; exact miss hit
        exact ⟨by omega, by omega, hit, fun u hu => hlow u (by omega)⟩

/-- It finds none exactly if no line from there on hits. -/
theorem lookupFrom_eq_none (k : Cache) (g : Geometry) (pa : Word) (n : Nat) : ∀ w : Nat,
    lookupFrom k g pa w n = none ↔ ∀ u, w ≤ u → u < w + n → ¬ (k.line g u (g.index pa)).hits g pa = true := by
  induction n with
  | zero => exact fun w => ⟨fun _ u h1 h2 => by omega, fun _ => rfl⟩
  | succ n ih =>
    intro w
    unfold lookupFrom
    split
    · rename_i hit
      exact ⟨fun h => (nomatch h), fun h => absurd hit (h w (Nat.le_refl w) (by omega))⟩
    · rename_i miss
      rw [ih (w + 1)]
      refine ⟨fun h u hu hn => ?_, fun h u hu hn => h u (by omega) (by omega)⟩
      rcases Nat.eq_or_lt_of_le hu with rfl | hlt
      · exact miss
      · exact h u hlt (by omega)

/-! ### The victim -/

/-- The search for an invalid way finds the first from `w` on. -/
theorem invalidFrom_eq_some {k : Cache} {g : Geometry} {i n : Nat} : ∀ {w v : Nat}, invalidFrom k g i w n = some v →
    v < w + n ∧ (k.line g v i).valid = false ∧ ∀ u, w ≤ u → u < v → (k.line g u i).valid = true := by
  induction n with
  | zero => exact fun h => nomatch h
  | succ n ih =>
    intro w v h
    unfold invalidFrom at h
    split at h
    · rename_i valid
      obtain ⟨h1, h2, h3⟩ := ih h
      refine ⟨by omega, h2, fun u hu huv => ?_⟩
      rcases Nat.eq_or_lt_of_le hu with rfl | hlt
      · exact valid
      · exact h3 u hlt huv
    · rename_i invalid
      cases h
      exact ⟨by omega, by simpa using invalid, fun u h1 h2 => by omega⟩

/-- If it finds none, every way is valid. -/
theorem invalidFrom_eq_none {k : Cache} {g : Geometry} {i n : Nat} : ∀ {w : Nat}, invalidFrom k g i w n = none →
    ∀ u, w ≤ u → u < w + n → (k.line g u i).valid = true := by
  induction n with
  | zero => exact fun _ u h1 h2 => by omega
  | succ n ih =>
    intro w h u hu hn
    unfold invalidFrom at h
    split at h
    · rename_i valid
      rcases Nat.eq_or_lt_of_le hu with rfl | hlt
      · exact valid
      · exact ih h u hlt (by omega)
    · cases h

/-- `best` is the lowest of the ways below `w` with the oldest stamp. -/
def OldestBelow (k : Cache) (g : Geometry) (i best w : Nat) : Prop :=
  best < w ∧ (∀ v < w, (k.line g best i).lastAccess ≤ (k.line g v i).lastAccess) ∧
    ∀ v < best, (k.line g best i).lastAccess < (k.line g v i).lastAccess

/-- The search for the oldest way keeps the oldest so far. -/
theorem oldestFrom_oldest {k : Cache} {g : Geometry} {i n : Nat} : ∀ {best w : Nat}, OldestBelow k g i best w →
    OldestBelow k g i (oldestFrom k g i best w n) (w + n) := by
  induction n with
  | zero => exact fun h => h
  | succ n ih =>
    rintro best w ⟨hb, hle, hlt⟩
    rw [show w + (n + 1) = w + 1 + n by omega]
    refine ih ?_
    split
    · rename_i younger
      have older (v : Nat) (hv : v < w) : (k.line g w i).lastAccess < (k.line g v i).lastAccess :=
        Nat.lt_of_lt_of_le younger (hle v hv)
      refine ⟨Nat.lt_succ_self w, fun v hv => ?_, older⟩
      rcases Nat.lt_succ_iff_lt_or_eq.mp hv with h | rfl
      · exact Nat.le_of_lt (older v h)
      · exact Nat.le_refl _
    · rename_i notYounger
      refine ⟨by omega, fun v hv => ?_, hlt⟩
      rcases Nat.lt_succ_iff_lt_or_eq.mp hv with h | rfl
      · exact hle v h
      · exact Nat.le_of_not_lt notYounger

/-- The victim is the first invalid way, or of valid ways the oldest (R143). -/
theorem victim_cases (k : Cache) (g : Geometry) (i : Nat) (hg : 1 ≤ g.ways) :
    (victim k g i < g.ways ∧ (k.line g (victim k g i) i).valid = false ∧ ∀ v < victim k g i, (k.line g v i).valid = true) ∨
      ((∀ v < g.ways, (k.line g v i).valid = true) ∧ OldestBelow k g i (victim k g i) g.ways) := by
  unfold victim
  split
  · rename_i w h
    obtain ⟨h1, h2, h3⟩ := invalidFrom_eq_some h
    exact .inl ⟨by omega, h2, fun v => h3 v (Nat.zero_le v)⟩
  · rename_i h
    refine .inr ⟨fun v hv => invalidFrom_eq_none h v (Nat.zero_le v) (by omega), ?_⟩
    have first : OldestBelow k g i 0 1 :=
      ⟨Nat.zero_lt_one, fun v hv => by rw [Nat.lt_one_iff.mp hv], fun v hv => absurd hv (Nat.not_lt_zero v)⟩
    have := oldestFrom_oldest (n := g.ways - 1) first
    rwa [Nat.add_sub_cancel' hg] at this

/-- Settles O29: the searches go up the ways, the oldest so far being kept among equals. -/
theorem waySelection : Obligations.WaySelection := by
  refine ⟨fun s c pa => ⟨fun w => ?_, ?_⟩, fun k g i hg => ?_⟩
  · simp only [lookup, lookupFrom_eq_some, CacheLine.hits_iff, Nat.zero_le, true_and, true_implies, Nat.zero_add]
  · simp only [lookup, lookupFrom_eq_none, CacheLine.hits_iff, Nat.zero_le, true_implies, Nat.zero_add]
  · rcases victim_cases k g i hg with ⟨hw, hinv, hlow⟩ | ⟨hall, hw, hle, hlt⟩
    · exact ⟨hw, fun _ => ⟨by simp [hinv], hlow⟩, fun h => absurd (h _ hw) (by simp [hinv])⟩
    · exact ⟨hw, fun ⟨v, hv, hn⟩ => absurd (hall v hv) hn, fun _ => ⟨hle, hlt⟩⟩

/-! ### The bus token -/

/-- A client gets no token that another holds. -/
theorem acquireBus_held {s : State} {c d : Client} (h : s.bus.holder = some c) (hd : d ≠ c) : (acquireBus s d).1 = false := by
  simp [acquireBus, h, Ne.symm hd]

/-- A free token goes to any client, unless another one has released it in this cycle. -/
theorem acquireBus_free {s : State} (h : s.bus.holder = none) (c : Client) :
    (acquireBus s c).1 = !decide (s.bus.lastReleaseCycle = some s.cycle ∧ s.bus.lastReleaser ≠ some c) := by
  unfold acquireBus
  by_cases hb : s.bus.lastReleaseCycle = some s.cycle ∧ s.bus.lastReleaser ≠ some c <;> simp [h, hb]

/-- Settles O31: a release leaves its cycle and client behind, and the next cycle is another. -/
theorem busTurnaround : Obligations.BusTurnaround := by
  intro s c d hd
  refine ⟨fun h => ?_, fun t h => ?_, fun h => if_neg h⟩
  · rcases acquireBus_cases s c with ⟨-, -, e⟩ | ⟨e, -, -⟩
    · have hc : (acquireBus s c).2.bus.holder = some c := by rw [e]
      exact ⟨hc, acquireBus_held hc hd⟩
    · rw [e] at h
      cases h
  · obtain ⟨-, rfl⟩ := releaseBus_next h
    refine ⟨rfl, ?_, ?_, ?_⟩ <;> rw [acquireBus_free rfl] <;> simp [tick, Ne.symm hd]

end Sys2Proof.Machine
end

section
/-! O32, O33. Memory as rows of bytes, and the bits of the value that a row of bytes has in either byte order
(spec/20_memory.md R112, R116, R119). `Endian.place` says which byte of the row is which byte of the value. -/

namespace Sys2Proof

/-- The place, up from the lowest address, of byte `j` of an `n`-byte value, byte 0 the least significant. -/
def Endian.place (e : Endian) (n j : Nat) : Nat :=
  match e with
  | .big => n - 1 - j
  | .little => j

/-- The byte of a word's value, byte 0 the least significant, at which the lane of `n` bytes at offset `k` begins. -/
def Endian.lane (e : Endian) (n k : Nat) : Nat :=
  match e with
  | .big => 4 - n - k
  | .little => k

theorem Endian.place_lt (e : Endian) {n j : Nat} (h : j < n) : e.place n j < n := by
  cases e <;> (simp only [Endian.place]; omega)

theorem Endian.place_place (e : Endian) {n j : Nat} (h : j < n) : e.place n (e.place n j) = j := by
  cases e <;> simp only [Endian.place]
  omega

theorem Endian.lane_le (e : Endian) {n k : Nat} (h : k + n ≤ 4) : e.lane n k + n ≤ 4 := by
  cases e <;> (simp only [Endian.lane]; omega)

/-- The bytes of a lane have their places in the word from the lane's offset on. -/
theorem Endian.place_lane (e : Endian) {n k j : Nat} (h : k + n ≤ 4) (hj : j < n) :
    e.place 4 (e.lane n k + j) = k + e.place n j := by
  cases e <;> simp only [Endian.place, Endian.lane]
  omega

/-- The bytes that have their places there are those of the lane. -/
theorem Endian.lane_of_place (e : Endian) {n k j i : Nat} (h : k + n ≤ 4) (hi : i < 4) (hj : j < n) (hp : e.place 4 i = k + j) :
    e.lane n k ≤ i ∧ i < e.lane n k + n := by
  cases e <;> (simp only [Endian.place, Endian.lane] at hp ⊢; omega)

end Sys2Proof

namespace Sys2Proof.Machine

/-! ### Rows of bytes in memory -/

theorem Memory.length_readBytes (m : Memory) (pa : Word) (n : Nat) : (m.readBytes pa n).length = n := by
  induction n generalizing pa with
  | zero => rfl
  | succ n ih => simp [Memory.readBytes, ih]

theorem add_one_add_ofNat (pa : Word) (n : Nat) : pa + 1#32 + BitVec.ofNat 32 n = pa + BitVec.ofNat 32 (n + 1) := by
  rw [BitVec.add_assoc, Nat.add_comm n 1, BitVec.ofNat_add]

/-- Offsets below 2^32 lead to different addresses. -/
theorem add_ofNat_injective {pa : Word} {i j : Nat} (hi : i < 2 ^ 32) (hj : j < 2 ^ 32)
    (h : (pa + BitVec.ofNat 32 i).toNat = (pa + BitVec.ofNat 32 j).toNat) : i = j := by
  have := (BitVec.add_right_inj pa).mp (BitVec.eq_of_toNat_eq h)
  have := congrArg BitVec.toNat this
  rwa [BitVec.toNat_ofNat, BitVec.toNat_ofNat, Nat.mod_eq_of_lt hi, Nat.mod_eq_of_lt hj] at this

theorem Memory.getElem_readBytes (m : Memory) (pa : Word) {n k : Nat} (h : k < (m.readBytes pa n).length) :
    (m.readBytes pa n)[k] = Memory.read m (pa + BitVec.ofNat 32 k).toNat := by
  induction n generalizing pa k with
  | zero => exact absurd h (Nat.not_lt_zero k)
  | succ n ih =>
    cases k with
    | zero => simp [Memory.readBytes]
    | succ k => simp [Memory.readBytes, ih, add_one_add_ofNat]

/-- A row of bytes written leaves every address outside it as it was. -/
theorem Memory.read_writeBytes_outside (m : Memory) (pa : Word) (bs : List Byte) {a : Nat}
    (h : ∀ n < bs.length, a ≠ (pa + BitVec.ofNat 32 n).toNat) : Memory.read (m.writeBytes pa bs) a = Memory.read m a := by
  induction bs generalizing m pa with
  | nil => rfl
  | cons b bs ih =>
    have h0 : a ≠ pa.toNat := by simpa using h 0 (by simp)
    refine (ih _ _ fun n hn => ?_).trans (by rw [Memory.read_write, if_neg h0])
    rw [add_one_add_ofNat]
    exact h (n + 1) (by simpa using hn)

/-- A row of bytes written and read back, as long as it does not meet itself. -/
theorem Memory.read_writeBytes_inside (m : Memory) (pa : Word) (bs : List Byte) (hl : bs.length ≤ 2 ^ 32) {n : Nat}
    (h : n < bs.length) : Memory.read (m.writeBytes pa bs) (pa + BitVec.ofNat 32 n).toNat = bs[n] := by
  induction bs generalizing m pa n with
  | nil => exact absurd h (Nat.not_lt_zero n)
  | cons b bs ih =>
    simp only [List.length_cons] at h hl
    cases n with
    | zero =>
      rw [Memory.writeBytes, Memory.read_writeBytes_outside]
      · simp [Memory.read_write]
      · intro k hk e
        rw [add_one_add_ofNat] at e
        exact absurd (add_ofNat_injective (by omega) (by omega) e) (by omega)
    | succ n =>
      rw [← add_one_add_ofNat]
      exact ih _ _ (by omega) (by omega)

theorem Memory.readBytes_writeBytes (m : Memory) (pa : Word) (bs : List Byte) (hl : bs.length ≤ 2 ^ 32) :
    (m.writeBytes pa bs).readBytes pa bs.length = bs := by
  refine List.ext_getElem (Memory.length_readBytes _ _ _) fun n h1 h2 => ?_
  rw [Memory.getElem_readBytes, Memory.read_writeBytes_inside _ _ _ hl h2]

/-- The addresses of a row of bytes. -/
theorem mem_cellsFrom {pa : Word} {bs : List Byte} {n : Nat} (h : n < bs.length) :
    (pa + BitVec.ofNat 32 n).toNat ∈ (cellsFrom pa bs).map fun x => x.1.toNat := by
  induction bs generalizing pa n with
  | nil => exact absurd h (Nat.not_lt_zero n)
  | cons b bs ih =>
    cases n with
    | zero => simp [cellsFrom]
    | succ n =>
      rw [← add_one_add_ofNat]
      exact List.mem_cons_of_mem _ (ih (by simpa using h))

/-! ### The bits of a value -/

theorem getLsbD_byteOf (v : Word) (k j : Nat) (h : j < 8) : (byteOf v k).getLsbD j = v.getLsbD (8 * k + j) := by
  simp [byteOf, h]

theorem toNat_truncate (w : Width) (v : Word) : (w.truncate v).toNat = v.toNat % 2 ^ (8 * w.bytes) := by
  cases w
  · exact (BitVec.toNat_and _ _).trans (Nat.and_two_pow_sub_one_eq_mod v.toNat 8)
  · exact (BitVec.toNat_and _ _).trans (Nat.and_two_pow_sub_one_eq_mod v.toNat 16)
  · exact (Nat.mod_eq_of_lt v.isLt).symm

theorem getLsbD_truncate (w : Width) (v : Word) (i : Nat) :
    (w.truncate v).getLsbD i = (decide (i < 8 * w.bytes) && v.getLsbD i) := by
  rw [BitVec.getLsbD, toNat_truncate, Nat.testBit_mod_two_pow]
  rfl

theorem Width.bytes_le (w : Width) : w.bytes ≤ 4 := by cases w <;> decide

theorem getLsbD_valueLittle (bs : List Byte) {i : Nat} (hi : i < 32) :
    (valueLittle bs).getLsbD i = (bs.getD (i / 8) 0#8).getLsbD (i % 8) := by
  induction bs generalizing i with
  | nil => simp [valueLittle]
  | cons b bs ih =>
    rw [valueLittle, BitVec.getLsbD_or, BitVec.getLsbD_shiftLeft, BitVec.getLsbD_setWidth]
    by_cases h8 : i < 8
    · simp [h8, hi, Nat.div_eq_of_lt h8, Nat.mod_eq_of_lt h8]
    · have hd : i / 8 = (i - 8) / 8 + 1 := by omega
      rw [ih (by omega), hd, List.getD_cons_succ, BitVec.getLsbD_of_ge b i (by omega)]
      simp [hi, h8, show (i - 8) % 8 = i % 8 by omega]

theorem valueLittle_append (as bs : List Byte) :
    valueLittle (as ++ bs) = valueLittle as ||| (valueLittle bs <<< (8 * as.length)) := by
  induction as with
  | nil => simp [valueLittle]
  | cons a as ih =>
    simp only [List.cons_append, valueLittle, ih, BitVec.shiftLeft_or_distrib, ← BitVec.shiftLeft_add, List.length_cons,
      BitVec.or_assoc, Nat.mul_succ]

theorem valueBig_eq_reverse (bs : List Byte) : valueBig bs = valueLittle bs.reverse := by
  induction bs with
  | nil => rfl
  | cons b bs ih => simp [valueBig, valueLittle_append, valueLittle, ih, BitVec.or_comm]

/-- The bits of a row's value: those of the byte in its place. -/
theorem getLsbD_valueOfBytes (e : Endian) (bs : List Byte) {i : Nat} (hi : i < 32) (h : i < 8 * bs.length) :
    (valueOfBytes e bs).getLsbD i = (bs.getD (e.place bs.length (i / 8)) 0#8).getLsbD (i % 8) := by
  cases e
  · rw [valueOfBytes, valueBig_eq_reverse, getLsbD_valueLittle _ hi]
    simp [Endian.place, List.getD, List.getElem?_reverse (show i / 8 < bs.length by omega)]
  · exact getLsbD_valueLittle bs hi

/-- Above its row a value has no bits. -/
theorem getLsbD_valueOfBytes_above (e : Endian) (bs : List Byte) {i : Nat} (h : 8 * bs.length ≤ i) :
    (valueOfBytes e bs).getLsbD i = false := by
  by_cases hi : i < 32
  · have none (bs : List Byte) (h : 8 * bs.length ≤ i) : (valueLittle bs).getLsbD i = false := by
      rw [getLsbD_valueLittle _ hi, List.getD_eq_default _ _ (by omega)]
      exact BitVec.getLsbD_zero
    cases e
    · exact (congrArg (·.getLsbD i) (valueBig_eq_reverse bs)).trans (none _ (by simpa using h))
    · exact none bs h
  · exact BitVec.getLsbD_of_ge _ _ (by omega)

theorem getElem?_bytesBig (v : Word) (n j : Nat) : (bytesBig v n)[j]? = if j < n then some (byteOf v (n - 1 - j)) else none := by
  induction n generalizing j with
  | zero => rfl
  | succ n ih =>
    cases j with
    | zero => rfl
    | succ j => simp [bytesBig, ih, show n - 1 - j = n - (j + 1) by omega]

theorem length_bytesBig (v : Word) (n : Nat) : (bytesBig v n).length = n := by
  induction n with
  | zero => rfl
  | succ n ih => simp [bytesBig, ih]

@[simp] theorem length_bytesOfValue (e : Endian) (n : Nat) (v : Word) : (bytesOfValue e n v).length = n := by
  cases e <;> simp [bytesOfValue, length_bytesBig]

/-- The bytes of a value: each in its place. -/
theorem getElem_bytesOfValue (e : Endian) (n : Nat) (v : Word) {j : Nat} (h : j < (bytesOfValue e n v).length) :
    (bytesOfValue e n v)[j] = byteOf v (e.place n j) := by
  have hj : j < n := by simpa using h
  rw [List.getElem_eq_iff]
  cases e
  · simp [bytesOfValue, getElem?_bytesBig, hj, Endian.place]
  · rw [bytesOfValue, List.getElem?_reverse (by rwa [length_bytesBig]), length_bytesBig, getElem?_bytesBig, if_pos (by omega),
      Endian.place, Nat.sub_sub_self (by omega)]

/-! ### Memory: what is stored is what is fetched -/

/-- The bits of the value that memory holds. -/
theorem getLsbD_valueOfReadBytes (e : Endian) (m : Memory) (pa : Word) {n i : Nat} (hi : i < 32) (h : i < 8 * n) :
    (valueOfBytes e (m.readBytes pa n)).getLsbD i =
      (Memory.read m (pa + BitVec.ofNat 32 (e.place n (i / 8))).toNat).getLsbD (i % 8) := by
  have hp : e.place n (i / 8) < (m.readBytes pa n).length := by
    rw [Memory.length_readBytes]
    exact e.place_lt (by omega)
  have hb := getLsbD_valueOfBytes e (m.readBytes pa n) hi (by rwa [Memory.length_readBytes])
  rw [Memory.length_readBytes] at hb
  rw [hb, List.getD_eq_getElem _ _ hp, Memory.getElem_readBytes]

/-- The bytes of a value in its places give back its low bytes (R112). -/
theorem valueOfBytes_bytesOfValue (e : Endian) (w : Width) (v : Word) :
    valueOfBytes e (bytesOfValue e w.bytes v) = w.truncate v := by
  refine BitVec.eq_of_getLsbD_eq fun i hi => ?_
  rw [getLsbD_truncate]
  by_cases h : i < 8 * w.bytes
  · have hp : i / 8 < w.bytes := by omega
    rw [getLsbD_valueOfBytes e _ hi (by simpa using h), length_bytesOfValue,
      List.getD_eq_getElem _ _ (by simpa using e.place_lt hp), getElem_bytesOfValue, e.place_place hp, getLsbD_byteOf _ _ _ (Nat.mod_lt _ (by decide)), Nat.div_add_mod]
    simp [h]
  · rw [getLsbD_valueOfBytes_above e _ (by simpa using h)]
    simp [h]

/-- What a word, halfword or byte stored in memory reads as there (R112, R116). -/
theorem memoryValue_writeBytes (e : Endian) (m : Memory) (pa v : Word) (w : Width) :
    valueOfBytes e ((m.writeBytes pa (bytesOfValue e w.bytes v)).readBytes pa w.bytes) = w.truncate v := by
  have hr := Memory.readBytes_writeBytes m pa (bytesOfValue e w.bytes v) (by have := w.bytes_le; simp; omega)
  rw [length_bytesOfValue] at hr
  rw [hr, valueOfBytes_bytesOfValue]

/-- Settles O32: the bytes stored are read back in the same places. -/
theorem mapperRoundTrip : Obligations.MapperRoundTrip := by
  intro s pa v w c d hd t
  have ht : t = { s with mem := s.mem.writeBytes pa (bytesOfValue s.cfg.endian w.bytes v) } := mapperStore_memory hd w v c
  refine ⟨?_, fun a ha => ?_⟩
  · rw [mapperFetch_memory (by rw [ht]; exact hd), Prod.mk.injEq]
    refine ⟨BitVec.eq_of_toNat_eq ?_, rfl⟩
    rw [ht, memoryValue, memoryValue_writeBytes, toNat_truncate, BitVec.toNat_ofNat]
    exact (Nat.mod_eq_of_lt (Nat.lt_of_le_of_lt (Nat.mod_le _ _) v.isLt)).symm
  · rw [ht]
    exact Memory.read_writeBytes_outside _ _ _ fun n hn e => ha (e ▸ mem_cellsFrom hn)

/-! ### The lanes of a cached word -/

theorem laneShift_offset (e : Endian) (w : Width) {pa : Word} (hpa : pa.toNat % 4 = 0) {k : Nat} (hk : k < 4) :
    laneShift e w (pa + BitVec.ofNat 32 k) = 8 * e.lane w.bytes k := by
  have : ((pa + BitVec.ofNat 32 k) &&& 3#32).toNat = k := by
    rw [BitVec.toNat_and, BitVec.toNat_add, BitVec.toNat_ofNat]
    refine (Nat.and_two_pow_sub_one_eq_mod _ 2).trans ?_
    omega
  cases e <;> simp only [laneShift, this, Endian.lane]

/-- An aligned lane lies in its word. -/
theorem lane_fits {w : Width} {k : Nat} (hk : k < 4) (hw : k % w.bytes = 0) : k + w.bytes ≤ 4 := by
  cases w <;> simp only [Width.bytes] at * <;> omega

/-- A lane holds the value of the bytes at its addresses. -/
theorem laneRead_memory (e : Endian) (m : Memory) {pa : Word} (x : Width) (hpa : pa.toNat % 4 = 0) {n : Nat} (hn : n < 4)
    (hx : n % x.bytes = 0) : laneRead e x (pa + BitVec.ofNat 32 n) (valueOfBytes e (m.readBytes pa 4)) =
      valueOfBytes e (m.readBytes (pa + BitVec.ofNat 32 n) x.bytes) := by
  have hfit := lane_fits hn hx
  have hlane := e.lane_le hfit
  refine BitVec.eq_of_getLsbD_eq fun i hi => ?_
  rw [laneRead, getLsbD_truncate, BitVec.getLsbD_ushiftRight, laneShift_offset e x hpa hn]
  by_cases h : i < 8 * x.bytes
  · rw [getLsbD_valueOfReadBytes e m _ hi h, getLsbD_valueOfReadBytes e m pa (by omega) (by omega), Nat.mul_add_div (by decide),
      e.place_lane hfit (by omega), BitVec.add_assoc, ← BitVec.ofNat_add, Nat.mul_add_mod, decide_eq_true h, Bool.true_and]
  · rw [decide_eq_false h, Bool.false_and, getLsbD_valueOfBytes_above e _ (by rw [Memory.length_readBytes]; omega)]

/-- A write replaces the bits of its lane. -/
theorem getLsbD_laneWrite (e : Endian) (w : Width) (pa word v : Word) {i : Nat} (hi : i < 32) :
    (laneWrite e w pa word v).getLsbD i =
      if laneShift e w pa ≤ i ∧ i < laneShift e w pa + 8 * w.bytes then v.getLsbD (i - laneShift e w pa)
      else word.getLsbD i := by
  have hones : (0xFFFFFFFF#32).getLsbD (i - laneShift e w pa) = true := by
    rw [show 0xFFFFFFFF#32 = BitVec.allOnes 32 from rfl, BitVec.getLsbD_allOnes]
    exact decide_eq_true (by omega)
  rw [laneWrite, BitVec.getLsbD_or, BitVec.getLsbD_and, BitVec.getLsbD_not, BitVec.getLsbD_shiftLeft,
    BitVec.getLsbD_shiftLeft, getLsbD_truncate, getLsbD_truncate, hones]
  by_cases h1 : i < laneShift e w pa
  · simp [hi, h1, Nat.not_le_of_lt h1]
  · by_cases h2 : i - laneShift e w pa < 8 * w.bytes
    · rw [if_pos (by omega)]
      simp [hi, h1, h2]
    · rw [if_neg (by omega)]
      simp [hi, h1, h2]

/-- A write into a lane leaves the word that memory holds after the same write at its address. -/
theorem laneWrite_memory (e : Endian) (m : Memory) {pa : Word} (v : Word) (w : Width) (hpa : pa.toNat % 4 = 0) {k : Nat}
    (hk : k < 4) (hw : k % w.bytes = 0) :
    laneWrite e w (pa + BitVec.ofNat 32 k) (valueOfBytes e (m.readBytes pa 4)) v =
      valueOfBytes e ((m.writeBytes (pa + BitVec.ofNat 32 k) (bytesOfValue e w.bytes v)).readBytes pa 4) := by
  have hfit := lane_fits hk hw
  have hlane := e.lane_le hfit
  have hlen : (bytesOfValue e w.bytes v).length ≤ 2 ^ 32 := by rw [length_bytesOfValue]; omega
  refine BitVec.eq_of_getLsbD_eq fun i hi => ?_
  rw [getLsbD_laneWrite _ _ _ _ _ hi, getLsbD_valueOfReadBytes e _ _ hi (by omega), getLsbD_valueOfReadBytes e _ _ hi (by omega),
    laneShift_offset e w hpa hk]
  split
  · obtain ⟨j, hj, hlt⟩ : ∃ j, i / 8 = e.lane w.bytes k + j ∧ j < w.bytes := ⟨i / 8 - e.lane w.bytes k, by omega, by omega⟩
    rw [hj, e.place_lane hfit hlt, BitVec.ofNat_add, ← BitVec.add_assoc,
      Memory.read_writeBytes_inside _ _ _ hlen (by rw [length_bytesOfValue]; exact e.place_lt hlt), getElem_bytesOfValue,
      e.place_place hlt, getLsbD_byteOf _ _ _ (Nat.mod_lt _ (by decide))]
    congr 1
    omega
  · rename_i h
    rw [Memory.read_writeBytes_outside]
    intro j hj heq
    rw [BitVec.add_assoc, ← BitVec.ofNat_add] at heq
    rw [length_bytesOfValue] at hj
    have := e.place_lt (show i / 8 < 4 by omega)
    have hplace := add_ofNat_injective (by omega) (by omega) heq
    have := e.lane_of_place hfit (by omega) hj hplace
    omega

/-- Settles O33: a cached word that is written stays the word of the memory that is written. -/
theorem lanesMatchMemory : Obligations.LanesMatchMemory := by
  intro e m pa v w x k hpa hk hw n hn hx W at_
  refine ⟨laneRead_memory e m x hpa hn hx, ?_⟩
  rw [laneWrite_memory e m v w hpa hk hw]
  exact laneRead_memory e _ x hpa hn hx

end Sys2Proof.Machine
end


section
/-! O30, O60. A line transfer of a cache from its entry to its completion (spec/20_memory.md R147 to R150), the words always
ready: the state after `n` words, what a step makes of it, and from it the fill and the writeback. -/

namespace Sys2Proof.Machine

/-! ### A transfer -/

/-- The transaction after `n` of its words. -/
def Txn.after (x : Txn) (n : Nat) : Txn := { x with entered := true, next := n, remaining := x.remaining - n }

/-- The address of a transaction's word. -/
def Txn.wordAddr (x : Txn) (n : Nat) : Word := x.addr + BitVec.ofNat 32 (4 * n)

/-- `x` is about to enter as the transaction of cache `c`: the bus is free, every word in memory and always ready. -/
structure Entering (s : State) (c : CacheId) (x : Txn) : Prop where
  busy     : (s.cache c).ctrl ≠ .idle
  txn      : (s.cache c).txn = some x
  client   : x.client = c.client
  next     : x.next = 0
  entered  : x.entered = false
  words    : 0 < x.remaining
  holder   : s.bus.holder = none
  released : s.bus.lastReleaseCycle ≠ some s.cycle
  polls    : s.env.polls = []
  quiet    : s.env.quiet = true
  mapped   : ∀ n < x.remaining, mapped s.cfg (x.wordAddr n) = true
  memory   : ∀ n < x.remaining, isDevice s.cfg (x.wordAddr n) = false

/-- `t` is `s` after `n` words of the transaction `x` of cache `c`, the lines then being `L n` and memory `M n`. -/
structure Moved (s : State) (c : CacheId) (x : Txn) (L : Nat → List CacheLine) (M : Nat → Memory) (n : Nat) (t : State) :
    Prop where
  cfg    : t.cfg = s.cfg
  env    : t.env = s.env
  devLog : t.devLog = s.devLog
  mem    : t.mem = M n
  cache  : t.cache c = { s.cache c with lines := L n, txn := some (x.after n) }

/-- `t` is `s` with these lines in cache `c` and this memory. -/
structure Moves (s t : State) (c : CacheId) (lines : List CacheLine) (m : Memory) : Prop where
  cfg    : t.cfg = s.cfg
  env    : t.env = s.env
  devLog : t.devLog = s.devLog
  bus    : t.bus = s.bus
  cycle  : t.cycle = s.cycle
  mem    : t.mem = m
  cache  : t.cache c = { s.cache c with lines := lines }

@[simp] theorem cache_tick (s : State) (c : CacheId) : (tick s).cache c = s.cache c := by cases c <;> rfl

theorem Moved.tick {s t : State} {c : CacheId} {x : Txn} {L : Nat → List CacheLine} {M : Nat → Memory} {n : Nat}
    (h : Moved s c x L M n t) : Moved s c x L M n (tick t) :=
  ⟨h.cfg, h.env, h.devLog, h.mem, (cache_tick t c).trans h.cache⟩

/-- Requests are enqueued and nothing else changes (R113). -/
theorem requestWords_eq (mode : AccessMode) (d : Client) (n : Nat) :
    ∀ (s : State) (a : Word), ∃ q, requestWords s a mode d n = { s with requests := q } := by
  induction n with
  | zero => exact fun s _ => ⟨s.requests, rfl⟩
  | succ n ih =>
    intro s a
    have one : ∃ q, requestWord s { addr := a, mode, client := d } = { s with requests := q } := by
      unfold requestWord
      split
      · exact ⟨s.requests, rfl⟩
      · exact ⟨_, rfl⟩
    obtain ⟨q, hq⟩ := one
    obtain ⟨q', hq'⟩ := ih { s with requests := q } (a + 4#32)
    exact ⟨q', by rw [requestWords, hq, hq']⟩

/-- The lines as the entry of the transaction `x` leaves them: the victim of a fill is dropped (R148). -/
def Cache.enteredLines (k : Cache) (g : Geometry) (x : Txn) : List CacheLine :=
  if k.ctrl = .fetch then (k.updLine g x.way x.index fun l => { l with valid := false, dirty := false }).lines else k.lines

/-- The count of a moved word; the last releases the bus and completes (R149, R150). -/
theorem countWord_after (u : State) (c : CacheId) (x : Txn) (n : Nat) :
    countWord u c (x.after n) =
      if x.remaining - (n + 1) = 0 then
        andThen (releaseBus (u.setCache c { u.cache c with txn := some (x.after (n + 1)) }) x.client)
          fun v => .next (finishTxn v c (x.after (n + 1)))
      else .next (u.setCache c { u.cache c with txn := some (x.after (n + 1)) }) := rfl

section
variable {s t : State} {c : CacheId} {x : Txn} {L : Nat → List CacheLine} {M : Nat → Memory} {n : Nat}

/-- Entry takes the token and leaves the lines as `enteredLines` says (R148). -/
theorem Entering.enter (e : Entering s c x) (hM : M 0 = s.mem) (hL : L 0 = (s.cache c).enteredLines (s.cfg.geom c) x) :
    Moved s c x L M 0 (enterTxn s c x) ∧ (enterTxn s c x).bus.holder = some c.client ∧ (enterTxn s c x).cycle = s.cycle := by
  have ha : acquireBus s x.client = (true, { s with bus := { s.bus with holder := some c.client } }) := by
    simp [acquireBus, e.holder, e.released, e.client]
  have hx0 : { x with entered := true } = x.after 0 := by simp [Txn.after, e.next]
  have hcache : State.cache { s with bus := { s.bus with holder := some c.client } } c = s.cache c := by cases c <;> rfl
  simp only [enterTxn, ha, hx0, hcache]
  generalize hk : (if (s.cache c).ctrl = .fetch then _ else _ : Cache) = k
  obtain ⟨q, hq⟩ := requestWords_eq x.mode x.client (s.cfg.geom c).words
    (State.setCache { s with bus := { s.bus with holder := some c.client } } c k) x.addr
  rw [hq]
  refine ⟨⟨?_, ?_, ?_, ?_, ?_⟩, ?_, ?_⟩
  iterate 3 exact (by cases c <;> rfl)
  · rw [hM]; cases c <;> rfl
  · refine Eq.trans (b := k) (by cases c <;> rfl) ?_
    rw [← hk, hL, Cache.enteredLines]
    split <;> rfl
  iterate 2 exact (by cases c <;> rfl)

/-- A word moved into the line of a fill. -/
theorem moveWord_fill (hc : (s.cache c).ctrl = .fetch) {a : Word} (hd : isDevice s.cfg a = false) :
    moveWord s c x a = s.setCache c ((s.cache c).updLine (s.cfg.geom c) x.way x.index
      fun l => { l with data := l.data.set x.next (memoryValue s a .word) }) := by
  simp [moveWord, hc, mapperFetch_memory hd]

/-- A word moved from the line to memory. -/
theorem moveWord_writeback (hc : (s.cache c).ctrl ≠ .fetch) {a : Word} (hd : isDevice s.cfg a = false) :
    moveWord s c x a = { s with mem := s.mem.writeBytes a (bytesOfValue s.cfg.endian 4
      (((s.cache c).line (s.cfg.geom c) x.way x.index).data.getD x.next 0#32)) } := by
  simp [moveWord, hc, mapperStore_memory hd, Width.bytes]

/-- A transfer step moves the next word, lets go of its request and counts it (R149). -/
theorem Entering.stepCache_word (e : Entering s c x) (h : Moved s c x L M n t) (hn : n < x.remaining) :
    stepCache t c = countWord (retireRequest (moveWord t c (x.after n) (x.wordAddr n))
      { addr := x.wordAddr n, mode := x.mode, client := x.client }) c (x.after n) := by
  have hm : Machine.mapped t.cfg ((x.after n).addr + BitVec.ofNat 32 (4 * (x.after n).next)) = true := by
    rw [h.cfg]; exact e.mapped n hn
  rw [stepCache_transfer (by rw [h.cache]; exact e.busy) (by rw [h.cache]) rfl, transferWord, if_pos hm,
    pollReady_quiet (by rw [h.env]; exact e.polls) (by rw [h.env]; exact e.quiet)]
  rfl

/-- The state once the word is counted. -/
theorem Moves.counted {w : State} (h : Moved s c x L M n t) (hw : Moves t w c (L (n + 1)) (M (n + 1))) (r : BusRequest) :
    Moved s c x L M (n + 1) ((retireRequest w r).setCache c { w.cache c with txn := some (x.after (n + 1)) }) where
  cfg := by rw [setCache_cfg, ← h.cfg, ← hw.cfg]; rfl
  env := by rw [setCache_env, ← h.env, ← hw.env]; rfl
  devLog := by rw [setCache_devLog, ← h.devLog, ← hw.devLog]; rfl
  mem := by rw [setCache_mem, ← hw.mem]; rfl
  cache := by rw [cache_setCache, hw.cache, h.cache]

/-- A transfer step that leaves words to move. -/
theorem Entering.step (e : Entering s c x) (h : Moved s c x L M n t) (hn : n + 1 < x.remaining)
    (hw : Moves t (moveWord t c (x.after n) (x.wordAddr n)) c (L (n + 1)) (M (n + 1))) :
    ∃ u, stepCache t c = .next u ∧ Moved s c x L M (n + 1) u ∧ u.bus = t.bus ∧ u.cycle = t.cycle := by
  refine ⟨_, ?_, hw.counted h { addr := x.wordAddr n, mode := x.mode, client := x.client }, ?_, ?_⟩
  · rw [e.stepCache_word h (by omega), countWord_after, if_neg (by omega), cache_retireRequest]
  · rw [setCache_bus, ← hw.bus]; rfl
  · rw [setCache_cycle, ← hw.cycle]; rfl

/-- The transfer step of the last word releases the bus and completes (R150). -/
theorem Entering.lastStep (e : Entering s c x) (h : Moved s c x L M n t) (hb : t.bus.holder = some c.client)
    (hn : n + 1 = x.remaining) (hw : Moves t (moveWord t c (x.after n) (x.wordAddr n)) c (L (n + 1)) (M (n + 1))) :
    ∃ u, stepCache t c = .next (finishTxn u c (x.after (n + 1))) ∧ Moved s c x L M (n + 1) u ∧
      u.bus = { holder := none, lastReleaseCycle := some t.cycle, lastReleaser := some c.client } ∧ u.cycle = t.cycle := by
  have hk := hw.counted h { addr := x.wordAddr n, mode := x.mode, client := x.client }
  generalize hu : (retireRequest _ _).setCache c _ = u at hk
  have hbus : u.bus = t.bus := by rw [← hu, setCache_bus, ← hw.bus]; rfl
  have hcycle : u.cycle = t.cycle := by rw [← hu, setCache_cycle, ← hw.cycle]; rfl
  refine ⟨u.withBus { holder := none, lastReleaseCycle := some t.cycle, lastReleaser := some c.client }, ?_,
    ⟨hk.cfg, hk.env, hk.devLog, hk.mem, (cache_withBus u _ c).trans hk.cache⟩, rfl, hcycle⟩
  rw [e.stepCache_word h (by omega), countWord_after, if_pos (by omega), cache_retireRequest, hu, releaseBus, hbus, hb,
    e.client, if_pos rfl, ← hcycle]
  rfl

/-- The ticking steps from `n` words on to the completion, `k + 1` words being left. -/
theorem Entering.steps (e : Entering s c x) (hw : ∀ n t, n < x.remaining → Moved s c x L M n t →
      Moves t (moveWord t c (x.after n) (x.wordAddr n)) c (L (n + 1)) (M (n + 1))) (k : Nat) :
    ∀ (n : Nat) (t : State), Moved s c x L M n t → t.bus.holder = some c.client → n + (k + 1) = x.remaining →
      ∃ u, stepsCache c (k + 1) t = .next (tick (finishTxn u c (x.after x.remaining))) ∧ Moved s c x L M x.remaining u ∧
        u.bus = { holder := none, lastReleaseCycle := some (t.cycle + k), lastReleaser := some c.client } ∧
        u.cycle = t.cycle + k := by
  induction k with
  | zero =>
    intro n t h hb hn
    obtain ⟨u, hs, hu, hbus, hcycle⟩ := e.lastStep h hb hn (hw n t (by omega) h)
    rw [hn] at hs hu
    exact ⟨u, by rw [stepsCache_succ, hs]; rfl, hu, hbus, hcycle⟩
  | succ k ih =>
    intro n t h hb hn
    obtain ⟨u, hs, hu, hbus, hcycle⟩ := e.step h (by omega) (hw n t (by omega) h)
    obtain ⟨v, hs', hv, hbus', hcycle'⟩ := ih (n + 1) (Machine.tick u) hu.tick (by rw [← hb, ← hbus]; rfl) (by omega)
    have hclock : (Machine.tick u).cycle + k = t.cycle + (k + 1) := by rw [tick_cycle, hcycle]; omega
    exact ⟨v, by rw [stepsCache_succ, hs, andThen_next, hs'], hv, by rw [hbus', hclock], by rw [hcycle', hclock]⟩

/-- A whole transfer: one entry step, one step per word, and the completion. -/
theorem Entering.transfer (e : Entering s c x) (hM : M 0 = s.mem) (hL : L 0 = (s.cache c).enteredLines (s.cfg.geom c) x)
    (hw : ∀ n t, n < x.remaining → Moved s c x L M n t →
      Moves t (moveWord t c (x.after n) (x.wordAddr n)) c (L (n + 1)) (M (n + 1))) :
    ∃ u, stepsCache c (x.remaining + 1) s = .next (tick (finishTxn u c (x.after x.remaining))) ∧
      Moved s c x L M x.remaining u ∧ u.cycle = s.cycle + x.remaining ∧
      u.bus = { holder := none, lastReleaseCycle := some (s.cycle + x.remaining), lastReleaser := some c.client } := by
  obtain ⟨h, hb, hcycle⟩ := e.enter hM hL
  have hwords := e.words
  obtain ⟨u, hs, hu, hbus, hcycle'⟩ := e.steps hw (x.remaining - 1) 0 _ h.tick hb (by omega)
  have hclock : (Machine.tick (enterTxn s c x)).cycle + (x.remaining - 1) = s.cycle + x.remaining := by
    rw [tick_cycle, hcycle]; omega
  rw [hclock] at hbus hcycle'
  rw [Nat.sub_add_cancel hwords] at hs
  exact ⟨u, by rw [stepsCache_succ, stepCache_entry e.busy e.txn e.entered, andThen_next, hs], hu, hcycle', hbus⟩

end

/-! ### Lines -/

theorem slot_lt_lines {g : Geometry} {k : Cache} {way i : Nat} (hs : cacheShape g k = true) (hw : way < g.ways)
    (hi : i < g.blockCount) : g.slot way i < k.lines.length := by
  simp only [cacheShape, Bool.and_eq_true, beq_iff_eq] at hs
  rw [hs.1, Geometry.slot]
  calc way * g.blockCount + i < way * g.blockCount + g.blockCount := by omega
    _ = (way + 1) * g.blockCount := (Nat.succ_mul _ _).symm
    _ ≤ g.ways * g.blockCount := Nat.mul_le_mul_right _ hw

/-- The geometry's block count is no less than one, and a line has a word at least. -/
theorem wellFormed_geometry_pos {g : Geometry} (h : g.wellFormed = true) : 0 < g.blockCount ∧ 0 < g.words ∧ 4 * g.words ≤ g.blockSize := by
  simp only [Geometry.wellFormed, isPowerOfTwo, Bool.and_eq_true, beq_iff_eq, decide_eq_true_eq] at h
  obtain ⟨⟨⟨-, h4⟩, hc⟩, -⟩ := h
  refine ⟨hc ▸ Nat.two_pow_pos _, ?_, ?_⟩ <;> rw [Geometry.words] <;> omega

theorem Cache.line_of_lines {k : Cache} {g : Geometry} {way i : Nat} {l : CacheLine} {ls : List CacheLine}
    (h : k.lines = ls.set (g.slot way i) l) (hi : g.slot way i < ls.length) : k.line g way i = l := by
  rw [Cache.line, h, List.getD_eq_getElem _ _ (by rwa [List.length_set]), List.getElem_set_self]

theorem line_words {k : Cache} {g : Geometry} {way i : Nat} (hs : cacheShape g k = true)
    (hi : g.slot way i < k.lines.length) : (k.line g way i).data.length = g.words := by
  simp only [cacheShape, Bool.and_eq_true, List.all_eq_true, beq_iff_eq] at hs
  rw [Cache.line, List.getD_eq_getElem _ _ hi]
  exact hs.2 _ (List.getElem_mem hi)

/-! ### The fill -/

/-- The words of a line after the first `n` have been replaced by `w`. -/
def filledWords (d : List Word) (w : Nat → Word) : Nat → List Word
  | 0 => d
  | n + 1 => (filledWords d w n).set n (w n)

theorem length_filledWords (d : List Word) (w : Nat → Word) (n : Nat) : (filledWords d w n).length = d.length := by
  induction n with
  | zero => rfl
  | succ n ih => simp [filledWords, ih]

theorem getElem?_filledWords (d : List Word) (w : Nat → Word) {n j : Nat} (hj : j < n) (hd : j < d.length) :
    (filledWords d w n)[j]? = some (w j) := by
  induction n with
  | zero => exact absurd hj (Nat.not_lt_zero j)
  | succ n ih =>
    rw [filledWords, List.getElem?_set, length_filledWords]
    split
    · rename_i e
      rw [e, if_pos hd]
    · exact ih (by omega)

/-- The line of a fill after `n` words. -/
def fillLine (s : State) (c : CacheId) (x : Txn) (n : Nat) : CacheLine :=
  let l := (s.cache c).line (s.cfg.geom c) x.way x.index
  { l with valid := false, dirty := false, data := filledWords l.data (fun n => memoryValue s (x.wordAddr n) .word) n }

/-- The lines of a cache after `n` words of a fill. -/
def fillLines (s : State) (c : CacheId) (x : Txn) (n : Nat) : List CacheLine :=
  (s.cache c).lines.set ((s.cfg.geom c).slot x.way x.index) (fillLine s c x n)

/-- The completion of a fill makes the line valid and clean and stamps it (R150). -/
theorem finishTxn_fetch {u : State} {c : CacheId} (h : (u.cache c).ctrl = .fetch) (x : Txn) :
    finishTxn u c x = u.setCache c { (u.cache c).updLine (u.cfg.geom c) x.way x.index fun l =>
        { l with tag := (u.cfg.geom c).tag x.addr, valid := true, dirty := false, lastAccess := u.cycle } with
      ctrl := .idle, txn := none } := by
  simp [finishTxn, h]

/-- The line once the fill is complete. -/
def filledLine (s : State) (c : CacheId) (x : Txn) : CacheLine :=
  { fillLine s c x x.remaining with
    tag := (s.cfg.geom c).tag x.addr, valid := true, dirty := false, lastAccess := s.cycle + x.remaining }

/-- A whole fill. -/
theorem Entering.fill {s : State} {c : CacheId} {x : Txn} (e : Entering s c x) (hc : (s.cache c).ctrl = .fetch)
    (hi : (s.cfg.geom c).slot x.way x.index < (s.cache c).lines.length) :
    ∃ t, stepsCache c (x.remaining + 1) s = .next t ∧ t.cycle = s.cycle + x.remaining + 1 ∧
      t.bus = { holder := none, lastReleaseCycle := some (s.cycle + x.remaining), lastReleaser := some c.client } ∧
      t.mem = s.mem ∧ t.devLog = s.devLog ∧ t.cache c = { s.cache c with
        lines := (s.cache c).lines.set ((s.cfg.geom c).slot x.way x.index) (filledLine s c x), ctrl := .idle, txn := none } := by
  have hlines (n : Nat) {t : State} (h : Moved s c x (fillLines s c x) (fun _ => s.mem) n t) :
      (t.cache c).line (s.cfg.geom c) x.way x.index = fillLine s c x n ∧
        ∀ l, ((t.cache c).setLine (s.cfg.geom c) x.way x.index l).lines =
          (s.cache c).lines.set ((s.cfg.geom c).slot x.way x.index) l :=
    ⟨Cache.line_of_lines (congrArg Cache.lines h.cache) hi, fun l => by rw [h.cache]; exact List.set_set _⟩
  obtain ⟨u, hsteps, hu, hcycle, hbus⟩ := e.transfer (L := fillLines s c x) (M := fun _ => s.mem) rfl
      (by rw [Cache.enteredLines, if_pos hc]; rfl) fun n t hn h => by
    obtain ⟨hline, hset⟩ := hlines n h
    have hval : memoryValue t (x.wordAddr n) .word = memoryValue s (x.wordAddr n) .word := by
      rw [memoryValue, memoryValue, h.cfg, h.mem]
    rw [moveWord_fill (by rw [h.cache]; exact hc) (by rw [h.cfg]; exact e.memory n hn)]
    refine ⟨setCache_cfg _ _ _, setCache_env _ _ _, setCache_devLog _ _ _, setCache_bus _ _ _, setCache_cycle _ _ _,
      (setCache_mem _ _ _).trans h.mem, ?_⟩
    rw [cache_setCache, h.cfg, Cache.updLine, hval, fillLines, ← hset]
    simp only [Txn.after, hline]
    rfl
  obtain ⟨hline, hset⟩ := hlines _ hu
  rw [finishTxn_fetch (by rw [hu.cache]; exact hc)] at hsteps
  refine ⟨_, hsteps, ?_⟩
  simp only [cache_tick, cache_setCache, tick_cycle, tick_bus, tick_mem, tick_devLog, setCache_cycle, setCache_bus,
    setCache_mem, setCache_devLog]
  refine ⟨by rw [hcycle], hbus, hu.mem, hu.devLog, ?_⟩
  rw [hu.cfg, hcycle, Cache.updLine, ← hset]
  simp only [Txn.after, hline]
  rw [hu.cache]
  rfl

/-- A line's address has the tag of the address it was made from (R140). -/
theorem tag_lineBase (g : Geometry) (pa : Word) : g.tag (g.lineBase pa) = g.tag pa := by
  refine BitVec.eq_of_getLsbD_eq fun i hi => ?_
  simp only [Geometry.tag, Geometry.lineBase, BitVec.getLsbD_ushiftRight, BitVec.getLsbD_shiftLeft]
  by_cases h : g.offsetBits + g.indexBits + i < 32
  · simp [h, show ¬ g.offsetBits + g.indexBits + i < g.offsetBits by omega,
      show g.offsetBits + (g.offsetBits + g.indexBits + i - g.offsetBits) = g.offsetBits + g.indexBits + i by omega]
  · rw [BitVec.getLsbD_of_ge pa _ (Nat.le_of_not_lt h)]
    simp [h]

/-- Settles O30: the words go into the dropped line one by one, and the completion makes it valid and clean. -/
theorem fillLoadsLine : Obligations.FillLoadsLine := by
  intro s c pa way mode g i hg hway hshape hctrl htxn hfree hreleased hpolls hquiet hwords
  obtain ⟨hcount, hpos, -⟩ := wellFormed_geometry_pos hg
  have hslot := slot_lt_lines hshape hway (show i < g.blockCount from Nat.mod_lt _ hcount)
  have entering : Entering s c (fillTxn g c { addr := g.lineBase pa, way := way, index := i, mode := mode }) :=
    { busy := by rw [hctrl]; nofun
      txn := htxn, client := rfl, next := rfl, entered := rfl, words := hpos, holder := hfree, released := hreleased
      polls := hpolls, quiet := hquiet, mapped := fun n hn => (hwords n hn).1, memory := fun n hn => (hwords n hn).2 }
  obtain ⟨t, hsteps, hcycle, hbus, hmem, hlog, hcache⟩ := entering.fill hctrl hslot
  have hline : (t.cache c).line g way i = filledLine s c _ := Cache.line_of_lines (congrArg Cache.lines hcache) hslot
  refine ⟨t, hsteps, congrArg Cache.ctrl hcache, congrArg Cache.txn hcache, hcycle, hbus, hmem, hlog, ?_⟩
  rw [hline]
  refine ⟨rfl, rfl, tag_lineBase g pa, rfl, fun n hn => ?_, fun n hn => ?_⟩
  · exact getElem?_filledWords _ _ hn ((line_words hshape hslot).symm ▸ hn)
  · rw [congrArg Cache.lines hcache]
    exact List.getElem?_set_ne (Ne.symm hn)

/-! ### The writeback -/

/-- Memory after `n` words of `d` have been stored from `x`'s address up. -/
def writtenMem (s : State) (x : Txn) (d : List Word) : Nat → Memory
  | 0 => s.mem
  | n + 1 => (writtenMem s x d n).writeBytes (x.wordAddr n) (bytesOfValue s.cfg.endian 4 (d.getD n 0#32))

/-- The bytes of a transaction's word. -/
theorem wordAddr_add (x : Txn) (n i : Nat) : x.wordAddr n + BitVec.ofNat 32 i = x.addr + BitVec.ofNat 32 (4 * n + i) := by
  rw [Txn.wordAddr, BitVec.add_assoc, BitVec.ofNat_add]

/-- Bytes outside the words stored read as before. -/
theorem read_writtenMem (s : State) (x : Txn) (d : List Word) {a : Nat} (n : Nat)
    (h : ∀ i < 4 * n, a ≠ (x.addr + BitVec.ofNat 32 i).toNat) : Memory.read (writtenMem s x d n) a = Memory.read s.mem a := by
  induction n with
  | zero => rfl
  | succ n ih =>
    rw [writtenMem, Memory.read_writeBytes_outside, ih fun i hi => h i (by omega)]
    intro i hi
    rw [length_bytesOfValue] at hi
    rw [wordAddr_add]
    exact h _ (by omega)

/-- The words stored are in memory, as long as the addresses do not come round to the first. -/
theorem value_writtenMem (s : State) (x : Txn) (d : List Word) {n j : Nat} (hn : 4 * n ≤ 2 ^ 32) (hj : j < n) :
    valueOfBytes s.cfg.endian ((writtenMem s x d n).readBytes (x.wordAddr j) 4) = d.getD j 0#32 := by
  induction n with
  | zero => exact absurd hj (Nat.not_lt_zero j)
  | succ n ih =>
    rcases Nat.lt_succ_iff_lt_or_eq.mp hj with hlt | rfl
    · rw [← ih (by omega) hlt]
      congr 1
      refine List.ext_getElem (by simp only [Memory.length_readBytes]) fun i h1 h2 => ?_
      rw [Memory.length_readBytes] at h1
      rw [Memory.getElem_readBytes, Memory.getElem_readBytes, writtenMem, Memory.read_writeBytes_outside]
      intro k hk heq
      rw [length_bytesOfValue] at hk
      rw [wordAddr_add, wordAddr_add] at heq
      have := add_ofNat_injective (by omega) (by omega) heq
      omega
    · exact memoryValue_writeBytes s.cfg.endian _ (x.wordAddr j) _ .word

/-- The line once the writeback is complete: clean, and dropped if CACHE asked for that (R150, R163). -/
def writtenLine (s : State) (c : CacheId) (x : Txn) : CacheLine :=
  let l := (s.cache c).line (s.cfg.geom c) x.way x.index
  { l with dirty := false, valid := l.valid && !((s.cache c).ctrl == .opWriteback && x.invalidate) }

/-- The transaction that follows a writeback: of an eviction its chained fill (R150). -/
def chainedFill (s : State) (c : CacheId) (x : Txn) : Option Txn :=
  if (s.cache c).ctrl = .writeback then x.thenFill.map (fillTxn (s.cfg.geom c) c) else none

/-- The cache once the writeback is complete (R150). -/
def writtenCache (s : State) (c : CacheId) (x : Txn) : Cache :=
  { (s.cache c).setLine (s.cfg.geom c) x.way x.index (writtenLine s c x) with
    ctrl := if (chainedFill s c x).isSome then .fetch else .idle
    txn  := chainedFill s c x }

theorem finishTxn_writeback {u : State} {c : CacheId}
    (h : (u.cache c).ctrl = .writeback ∨ (u.cache c).ctrl = .opWriteback) (x : Txn) :
    finishTxn u c x = u.setCache c (writtenCache u c x) := by
  have differ : (CtrlState.writeback == CtrlState.opWriteback) = false := rfl
  rcases h with h | h
  · cases hf : x.thenFill <;>
      simp [finishTxn, writtenCache, chainedFill, writtenLine, Cache.updLine, Cache.setLine, h, hf, differ]
  · simp [finishTxn, writtenCache, chainedFill, writtenLine, Cache.updLine, Cache.setLine, h]

/-- A whole writeback. -/
theorem Entering.writeback {s : State} {c : CacheId} {x : Txn} (e : Entering s c x)
    (hc : (s.cache c).ctrl = .writeback ∨ (s.cache c).ctrl = .opWriteback) :
    ∃ t, stepsCache c (x.remaining + 1) s = .next t ∧ t.cycle = s.cycle + x.remaining + 1 ∧
      t.bus = { holder := none, lastReleaseCycle := some (s.cycle + x.remaining), lastReleaser := some c.client } ∧
      t.mem = writtenMem s x ((s.cache c).line (s.cfg.geom c) x.way x.index).data x.remaining ∧ t.devLog = s.devLog ∧
      t.cfg = s.cfg ∧ t.cache c = writtenCache s c x := by
  have hf : (s.cache c).ctrl ≠ .fetch := by rcases hc with h | h <;> simp [h]
  obtain ⟨u, hsteps, hu, hcycle, hbus⟩ := e.transfer (L := fun _ => (s.cache c).lines)
      (M := writtenMem s x ((s.cache c).line (s.cfg.geom c) x.way x.index).data) rfl
      (by rw [Cache.enteredLines, if_neg hf]) fun n t hn h => by
    rw [moveWord_writeback (by rw [h.cache]; exact hf) (by rw [h.cfg]; exact e.memory n hn)]
    refine ⟨rfl, rfl, rfl, rfl, rfl, ?_, ?_⟩
    · dsimp only
      rw [h.mem, h.cfg, h.cache]
      rfl
    · refine Eq.trans (b := t.cache c) (by cases c <;> rfl) ?_
      rw [h.cache]
  rw [finishTxn_writeback (by rw [hu.cache]; exact hc)] at hsteps
  refine ⟨_, hsteps, ?_⟩
  simp only [cache_tick, cache_setCache, tick_cycle, tick_bus, tick_mem, tick_devLog, tick_cfg, setCache_cycle, setCache_bus,
    setCache_mem, setCache_devLog, setCache_cfg]
  refine ⟨by rw [hcycle], hbus, hu.mem, hu.devLog, hu.cfg, ?_⟩
  simp only [writtenCache, writtenLine, chainedFill, hu.cache, hu.cfg]
  rfl

/-- Settles O60: each word is stored once, none over another, and the completion leaves the line clean. -/
theorem writebackStoresLine : Obligations.WritebackStoresLine := by
  intro s c x g k l wordAt hg hblock hway hindex hshape hctrl htxn hremaining hnext hentered hclient hfree hreleased hpolls
    hquiet hwords
  obtain ⟨-, hpos, hsize⟩ := wellFormed_geometry_pos hg
  have entering : Entering s c x :=
    { busy := by rcases hctrl with h | h <;> (rw [h]; nofun)
      txn := htxn, client := hclient, next := hnext, entered := hentered, words := hremaining ▸ hpos, holder := hfree
      released := hreleased, polls := hpolls, quiet := hquiet
      mapped := fun n hn => (hwords n (hremaining ▸ hn)).1, memory := fun n hn => (hwords n (hremaining ▸ hn)).2 }
  obtain ⟨t, hsteps, hcycle, hbus, hmem, hlog, hcfg, hcache⟩ := entering.writeback hctrl
  rw [hremaining] at hsteps hcycle hbus hmem
  refine ⟨t, hsteps, fun n hn => ?_, fun a ha => ?_, by rw [hcache]; rfl, by rw [hcache]; rfl, by rw [hcache]; rfl, hlog, hcycle,
    hbus, fun f hf hfill => ?_, fun hf => ?_⟩
  · rw [memoryValue, hcfg, hmem]
    exact value_writtenMem s x l.data (by omega) hn
  · rw [hmem]
    exact read_writtenMem s x l.data _ ha
  · have : chainedFill s c x = some (fillTxn g c f) := by rw [chainedFill, if_pos hf, hfill]; rfl
    rw [hcache, writtenCache, this]
    exact ⟨rfl, rfl⟩
  · have : chainedFill s c x = none := if_neg (by rw [hf]; nofun)
    rw [hcache, writtenCache, this]
    exact ⟨rfl, rfl⟩

end Sys2Proof.Machine
end

section
/-! O16, O45. The segments of an address and the records of its checks (spec/20_memory.md R104, R105, R107), and the IF
step that asks for one (R130, spec/70_reset_and_hazards.md R531). -/

namespace Sys2Proof.Machine

/-! ### The segments -/

/-- The segments that Translate maps: kuseg and kseg2. -/
def Walked (va : Word) : Prop := va.toNat < 0x80000000 ∨ 0xC0000000 ≤ va.toNat

theorem extract_segment (va : Word) (k : BitVec 3) : va.extractLsb' 29 3 = k ↔ va.toNat / 2 ^ 29 = k.toNat := by
  rw [← BitVec.toNat_inj, BitVec.extractLsb'_toNat, Nat.shiftRight_eq_div_pow, Nat.mod_eq_of_lt]
  exact Nat.div_lt_of_lt_mul va.isLt

theorem segmentMap_kseg0 {va : Word} (h1 : 0x80000000 ≤ va.toNat) (h2 : va.toNat < 0xA0000000) (s : State) (bad : Word)
    (mode : AccessMode) : segmentMap s va bad mode = { pa := some (va - 0x80000000#32), cacheable := true, recs := [] } := by
  refine if_pos ((extract_segment _ _).mpr ?_)
  show _ = 4
  omega

theorem segmentMap_kseg1 {va : Word} (h1 : 0xA0000000 ≤ va.toNat) (h2 : va.toNat < 0xC0000000) (s : State) (bad : Word)
    (mode : AccessMode) : segmentMap s va bad mode = { pa := some (va - 0xA0000000#32), cacheable := false, recs := [] } := by
  rw [segmentMap, if_neg, if_pos] <;> rw [extract_segment]
  · show _ = 5
    omega
  · show _ ≠ 4
    omega

/-- What address translation makes of Translate's answer. -/
def Translation.result (t : Translation) (bad : Word) (mode : AccessMode) : AtResult :=
  match t with
  | .ok pa c => { pa := some pa, cacheable := c, recs := [] }
  | .tlbFault refill =>
    { pa := none, cacheable := false, recs := [{ kind := .tlb, mode := mode, badVAddr := bad, refill := refill }] }
  | .modFault => { pa := none, cacheable := false, recs := [{ kind := .mod, mode := .store, badVAddr := bad }] }

theorem segmentMap_walked {va : Word} (h : Walked va) (s : State) (bad : Word) (mode : AccessMode) :
    segmentMap s va bad mode = Translation.result (translate s.cfg va mode) bad mode := by
  rw [segmentMap, if_neg, if_neg]
  · cases translate s.cfg va mode <;> rfl
  · rw [extract_segment]
    show _ ≠ 5
    rcases h with h | h <;> omega
  · rw [extract_segment]
    show _ ≠ 4
    rcases h with h | h <;> omega

theorem msb_iff (va : Word) : va.msb = true ↔ 0x80000000 ≤ va.toNat := by
  rw [BitVec.msb_eq_decide, decide_eq_true_eq]

/-! ### The checks -/

theorem aligned_iff (va : Word) (w : Width) : aligned va w = true ↔ va.toNat % w.bytes = 0 := by
  have low (k : Nat) (c : Word) (h : ∀ n, n &&& c.toNat = n % 2 ^ k) : va &&& c = 0#32 ↔ va.toNat % 2 ^ k = 0 := by
    rw [← BitVec.toNat_inj, BitVec.toNat_and, h]
    rfl
  cases w
  · exact iff_of_true rfl (Nat.mod_one _)
  · exact beq_iff_eq.trans (low 1 1#32 fun n => Nat.and_two_pow_sub_one_eq_mod n 1)
  · exact beq_iff_eq.trans (low 2 3#32 fun n => Nat.and_two_pow_sub_one_eq_mod n 2)

theorem userCheck_eq (s : State) (va bad : Word) (mode : AccessMode) : userCheck s va bad mode =
    if s.userMode ∧ 0x80000000 ≤ va.toNat then [{ kind := .addrErr, mode, badVAddr := bad }] else [] := by
  simp only [userCheck, Bool.and_eq_true, msb_iff]

theorem mappedCheck_some (s : State) (pa : Word) (mode : AccessMode) : mappedCheck s (some pa) mode =
    if mapped s.cfg pa then [] else [if mode = .fetch then { kind := .ibe, mode } else { kind := .dbe, mode }] := by
  unfold mappedCheck
  dsimp only
  split
  · rfl
  · split
    · rename_i h
      rw [h]
    · rfl

theorem present_cacheOfMode (p : Params) (mode : AccessMode) :
    p.present (cacheOfMode mode) = if mode = .fetch then p.icachePresent else p.dcachePresent := by
  cases mode <;> rfl

/-- Settles O16: a segment is the three upper bits of the address, the user's half its highest bit. -/
theorem segmentMap_holds : Obligations.SegmentMap := by
  intro s va mode a user unmapped present
  have ha : a = addressTranslate s va va mode := rfl
  rw [addressTranslate, userCheck_eq, present_cacheOfMode] at ha
  refine ⟨fun h1 h2 => ?_, fun h1 h2 => ?_, fun h => ?_⟩
  · rw [ha, segmentMap_kseg0 h1 h2, mappedCheck_some]
    simp [user, unmapped, present]
  · rw [ha, segmentMap_kseg1 h1 h2, mappedCheck_some]
    simp [user, unmapped]
  · rw [ha, segmentMap_walked h]
    cases translate s.cfg va mode with
    | ok pa c => simp [Translation.result, mappedCheck_some, user, unmapped, present]
    | tlbFault refill => simp [Translation.result, mappedCheck, user]
    | modFault => simp [Translation.result, mappedCheck, user]

/-! ### A cache that is not ready -/

@[simp] theorem setCache_cache (s : State) (c : CacheId) : s.setCache c (s.cache c) = s := by cases c <;> rfl

/-- A cache that cannot give a line stays where it is busy, and starts the miss where it is idle (R142, R144). -/
theorem cacheReady_not {s : State} {c : CacheId} {pa : Word} (h : (s.cache c).ctrl ≠ .idle ∨ lookup s c pa = none)
    (mode : AccessMode) : ∃ k, cacheReady s c pa mode = (false, s.setCache c k) ∧
      if (s.cache c).ctrl = .idle then missStarted s c pa mode k else k = s.cache c := by
  by_cases hi : (s.cache c).ctrl = .idle
  · have hmiss := startMiss_missStarted s c pa mode
    obtain ⟨st, tx, e⟩ := startMiss_eq s c pa mode
    rw [cacheReady_miss hi (h.resolve_left (not_not_intro hi))]
    rw [e, cache_setCache] at hmiss
    exact ⟨_, by rw [e], (if_pos hi).mpr hmiss⟩
  · exact ⟨s.cache c, by rw [cacheReady_busy hi, setCache_cache], (if_neg hi).mpr rfl⟩

/-! ### The IF step -/

/-- A fetch leaves the registers, the bus, the slots, memory and DCACHE as they are. -/
theorem fetchWord_frame (s : State) (va : Word) :
    MemFrame s (fetchWord s va).state ∧ (fetchWord s va).state.mem = s.mem ∧ (fetchWord s va).state.dcache = s.dcache := by
  have ready {pa : Word} {b : Bool} {t : State} (h : cacheReady s .icache pa .fetch = (b, t)) :
      t.mem = s.mem ∧ t.dcache = s.dcache := by
    cases b with
    | true =>
      obtain ⟨rfl, -⟩ := cacheReady_true h
      exact ⟨rfl, rfl⟩
    | false =>
      obtain ⟨k, rfl, -⟩ := cacheReady_false h
      exact ⟨rfl, rfl⟩
  have read (u : State) (pa : Word) :
      (cacheRead u .icache pa .word).2.mem = u.mem ∧ (cacheRead u .icache pa .word).2.dcache = u.dcache := by
    simp only [cacheRead]
    split <;> exact ⟨rfl, rfl⟩
  have fetched (pa : Word) : (mapperFetch s pa .word .icache).2.dcache = s.dcache := cache_mapperFetch s pa .word .icache .dcache
  unfold fetchWord
  dsimp only
  split
  · exact ⟨.refl s, rfl, rfl⟩
  · exact ⟨.refl s, rfl, rfl⟩
  · rename_i pa _ _
    split
    · have f := cacheReady_frame s .icache pa .fetch
      split <;> rename_i u e <;> rw [e] at f <;> obtain ⟨hm, hd⟩ := ready e
      · exact ⟨f, hm, hd⟩
      · obtain ⟨hm', hd'⟩ := read u pa
        exact ⟨f.trans (cacheRead_frame u .icache pa .word), hm'.trans hm, hd'.trans hd⟩
    · split
      · exact ⟨mapperFetch_frame s pa .word .icache, mapperFetch_mem s pa .word .icache, fetched pa⟩
      · exact ⟨.refl s, rfl, rfl⟩

theorem ifPhase_faulted {s t : State} {recs : List ExcRecord} (h : fetchWord s s.pc = .faulted recs t) :
    ifPhase s = fillFetch t { pc := s.pc, bubble := false, exc := recs } := by
  rw [ifPhase, h]

theorem ifPhase_word {s t : State} {w : Word} (h : fetchWord s s.pc = .word w t) :
    ifPhase s = fillFetch t { pc := s.pc, instr := w, bubble := false } := by
  rw [ifPhase, h]

theorem ifPhase_notReady {s t : State} (h : fetchWord s s.pc = .notReady t) :
    ifPhase s = { t with pipe := { t.pipe with fetch := {} } } := by
  rw [ifPhase, h]

/-- A fetch with records of its checks ends in them. -/
theorem fetchWord_checks {s : State} {va : Word}
    (h : alignCheck va .word .fetch ++ (addressTranslate s va va .fetch).recs ≠ []) :
    fetchWord s va = .faulted (alignCheck va .word .fetch ++ (addressTranslate s va va .fetch).recs) s := by
  unfold fetchWord
  dsimp only
  split
  · rename_i e
    rw [e]
  · exact absurd ‹_› h
  · exact absurd ‹_› h

section
variable {s : State} {va pa : Word} (hv : aligned va .word = true)
include hv

/-- A fetch that passes its checks asks ICACHE. -/
theorem fetchWord_cached (hr : reaches s va .fetch pa true) :
    fetchWord s va = if (cacheReady s .icache pa .fetch).1 then
        .word (cacheRead (cacheReady s .icache pa .fetch).2 .icache pa .word).1
          (cacheRead (cacheReady s .icache pa .fetch).2 .icache pa .word).2
      else .notReady (cacheReady s .icache pa .fetch).2 := by
  have hr : addressTranslate s va va .fetch = { pa := some pa, cacheable := true, recs := [] } := hr
  simp only [fetchWord, hr, alignCheck_aligned hv, List.append_nil, if_true]
  split <;> rename_i e <;> simp [e]

/-- An uncached one is one Mapper call, or its address error. -/
theorem fetchWord_uncached (hr : reaches s va .fetch pa false) :
    fetchWord s va = if aligned pa .word then .word (mapperFetch s pa .word .icache).1 (mapperFetch s pa .word .icache).2
      else .faulted [{ kind := .addrErr, mode := .fetch, badVAddr := va }] s := by
  have hr : addressTranslate s va va .fetch = { pa := some pa, cacheable := false, recs := [] } := hr
  by_cases hp : aligned pa .word = true
  · simp [fetchWord, hr, alignCheck_aligned hv, mapperError_aligned hp, hp]
  · simp [fetchWord, hr, alignCheck_aligned hv, mapperError_misaligned (Bool.eq_false_iff.mpr hp), hp]

end

/-- An aligned word is the whole of its lane. -/
theorem laneRead_word {pa : Word} (h : aligned pa .word = true) (e : Endian) (w : Word) : laneRead e .word pa w = w := by
  have h0 : pa &&& 3#32 = 0#32 := by simpa [aligned] using h
  cases e <;> simp [laneRead, laneShift, h0, Width.bytes, Width.truncate]

theorem alignCheck_word (va : Word) (mode : AccessMode) : alignCheck va .word mode =
    if va.toNat % 4 = 0 then [] else [{ kind := .addrErr, mode, badVAddr := va }] := by
  simp only [alignCheck, aligned_iff, Width.bytes]

/-- A read of a line that the cache holds (R145). -/
theorem cacheRead_hit {s : State} {c : CacheId} {pa : Word} {way : Nat} (h : lookup s c pa = some way) (w : Width) :
    cacheRead s c pa w =
      (laneOrDraw s w pa (((s.cache c).line (s.cfg.geom c) way ((s.cfg.geom c).index pa)).data.getD
          ((s.cfg.geom c).wordIndex pa) 0#32),
        (s.drew (laneDraws w pa)).setCache c
          { (s.cache c).setLine (s.cfg.geom c) way ((s.cfg.geom c).index pa)
              { (s.cache c).line (s.cfg.geom c) way ((s.cfg.geom c).index pa) with lastAccess := s.cycle } with
            hits := (s.cache c).hits + 1 }) := by
  simp only [cacheRead, h]

/-- The frame of the IF step. -/
theorem ifPhase_frame (s : State) : let t := ifPhase s
    sameGpr s t ∧ sameHiLo s t ∧ sameCp0 s t ∧ t.mem = s.mem ∧ t.dcache = s.dcache ∧ sameBus s t ∧
      t.cycle = s.cycle ∧ t.cfg = s.cfg ∧
      t.pipe.dec = s.pipe.dec ∧ t.pipe.ex = s.pipe.ex ∧ t.pipe.mem = s.pipe.mem ∧ t.pipe.wb = s.pipe.wb := by
  intro t
  obtain ⟨f, hmem, hdcache⟩ := fetchWord_frame s s.pc
  have hslots : (fetchWord s s.pc).state.pipe.mem = s.pipe.mem := congrArg Pipeline.mem (fetchWord_keeps s s.pc).pipe
  obtain ⟨x, pc, -, e⟩ := ifPhase_cases s
  rw [show t = _ from e]
  exact ⟨readGpr_congr f.gpr, ⟨f.hi, f.lo⟩, ⟨f.sr, readCause_congr f.cause f.env, f.cause, f.epc, f.badVAddr⟩, hmem, hdcache,
    ⟨f.bus, f.requests, f.env⟩, f.cycle, f.cfg, f.slotDec, f.slotEx, hslots, f.slotWb⟩

/-- Settles O45: the fetch ends with its records, the line's word, a miss, or one Mapper call, and the IF slot is filled
with what it gives. -/
theorem fetchStep : Obligations.FetchStep := by
  intro s pa way recs g l t
  refine ⟨fun h => ?_, fun ha hr => ⟨fun hi hl => ?_, fun hn => ?_⟩, fun ha hr => ?_, ifPhase_frame s⟩
  · have hrecs : recs = alignCheck s.pc .word .fetch ++ (addressTranslate s s.pc s.pc .fetch).recs := by rw [alignCheck_word]
    rw [hrecs] at h ⊢
    exact ifPhase_faulted (fetchWord_checks h)
  · have hf := fetchWord_cached (aligned_word_of_mod ha) hr
    rw [cacheReady_hit (c := .icache) hi hl, if_pos rfl, cacheRead_hit hl] at hf
    refine (ifPhase_word hf).trans ?_
    by_cases hp : aligned pa .word = true
    · simp only [laneOrDraw, laneDraws, hp, laneRead_word hp]
      rfl
    · simp only [laneOrDraw, laneDraws, hp]
      rfl
  · have hf := fetchWord_cached (aligned_word_of_mod ha) hr
    obtain ⟨k, hready, hk⟩ := cacheReady_not (c := .icache) hn .fetch
    rw [hready, if_neg nofun] at hf
    rw [show t = _ from ifPhase_notReady hf]
    exact ⟨rfl, rfl, rfl, rfl, hk⟩
  · have hf := fetchWord_uncached (aligned_word_of_mod ha) hr
    by_cases hp : aligned pa .word = true
    · rw [if_pos hp] at hf
      rw [hp, if_neg nofun]
      split
      · rename_i hd
        rw [mapperFetch_device hd] at hf
        exact ifPhase_word hf
      · rename_i hd
        rw [mapperFetch_memory (by simpa using hd)] at hf
        exact ifPhase_word hf
    · rw [if_neg hp] at hf
      rw [if_pos (by simpa using hp)]
      exact ifPhase_faulted hf

end Sys2Proof.Machine
end

section
/-! Loads, stores and CACHE alone in the pipeline (spec/20_memory.md R120 to R123, spec/42_load_store.md R380, R381): the
forms they have in common, and how the passage ends with each end of the access. The operations of an access do not look
at the slots, so what they do to `s` they do to `s` with the instruction in MEM. -/

namespace Sys2Proof.Machine

/-! ### The operations of an access, the instruction in MEM -/

@[simp] theorem cfg_atMem (s : State) (x : Snapshot) : (atMem s x).cfg = s.cfg := rfl

@[simp] theorem cache_atMem (s : State) (x : Snapshot) (c : CacheId) : (atMem s x).cache c = s.cache c := by cases c <;> rfl

@[simp] theorem cacheIsolated_atMem (s : State) (x : Snapshot) (c : CacheId) :
    (atMem s x).cacheIsolated c = s.cacheIsolated c := by cases c <;> rfl

@[simp] theorem lookup_atMem (s : State) (x : Snapshot) (c : CacheId) (pa : Word) :
    lookup (atMem s x) c pa = lookup s c pa := by cases c <;> rfl

@[simp] theorem setCache_atMem (s : State) (x : Snapshot) (c : CacheId) (k : Cache) :
    (atMem s x).setCache c k = atMem (s.setCache c k) x := by cases c <;> rfl

@[simp] theorem drew_atMem (s : State) (x : Snapshot) (n : Nat) : (atMem s x).drew n = atMem (s.drew n) x := rfl

theorem startMiss_atMem (s : State) (x : Snapshot) (c : CacheId) (pa : Word) (mode : AccessMode) :
    startMiss (atMem s x) c pa mode = atMem (startMiss s c pa mode) x := by
  simp only [startMiss, cfg_atMem, cache_atMem, cacheIsolated_atMem, setCache_atMem]
  split <;> rfl

theorem cacheReady_atMem (s : State) (x : Snapshot) (c : CacheId) (pa : Word) (mode : AccessMode) :
    cacheReady (atMem s x) c pa mode = ((cacheReady s c pa mode).1, atMem (cacheReady s c pa mode).2 x) := by
  simp only [cacheReady, cache_atMem, lookup_atMem, startMiss_atMem]
  split
  · rfl
  · split <;> rfl

theorem cacheWrite_atMem (s : State) (x : Snapshot) (c : CacheId) (pa : Word) (w : Width) (v : Word) :
    cacheWrite (atMem s x) c pa w v = atMem (cacheWrite s c pa w v) x := by
  simp only [cacheWrite, cfg_atMem, cache_atMem, lookup_atMem, drew_atMem, setCache_atMem]
  split <;> rfl

theorem mapperStore_atMem (s : State) (x : Snapshot) (pa : Word) (w : Width) (v : Word) (c : Client) :
    mapperStore (atMem s x) pa w v c = atMem (mapperStore s pa w v c) x := by
  cases h : isDevice s.cfg pa
  · rw [mapperStore_memory (s := s) h, mapperStore_memory (s := atMem s x) h]
    rfl
  · rw [mapperStore_device (s := s) h, mapperStore_device (s := atMem s x) h]
    rfl

theorem storeAt_atMem (s : State) (x : Snapshot) (t : StoreTarget) : storeAt (atMem s x) t = atMem (storeAt s t) x := by
  cases h : t.cacheable <;> simp [storeAt, h, cacheWrite_atMem, mapperStore_atMem]

theorem storeAll_atMem (x : Snapshot) (ts : List StoreTarget) : ∀ s : State, storeAll (atMem s x) ts = atMem (storeAll s ts) x := by
  induction ts with
  | nil => exact fun s => rfl
  | cons t ts ih => exact fun s => by rw [storeAll, storeAt_atMem, ih, storeAll]

theorem storesReady_atMem (x : Snapshot) (ts : List StoreTarget) : ∀ s : State,
    storesReady (atMem s x) ts = ((storesReady s ts).1, atMem (storesReady s ts).2 x) := by
  induction ts with
  | nil => exact fun s => rfl
  | cons t ts ih =>
    intro s
    rcases hr : cacheReady s .dcache t.pa .store with ⟨_ | _, u⟩ <;> cases h : t.cacheable <;>
      simp [storesReady, cacheReady_atMem, h, hr, ih]

theorem perform_atMem (a : CacheAction) (s : State) (x : Snapshot) (pa : Word) :
    a.perform (atMem s x) pa = atMem (a.perform s pa) x := by
  cases a with
  | noOp => rfl
  | hitInvalidate c =>
    cases h : lookup s c pa <;> simp [CacheAction.perform, opHitInvalidate, h]
  | hitWriteback c =>
    cases h : lookup s c pa <;> simp only [CacheAction.perform, opHitWriteback, h, cfg_atMem, cache_atMem, lookup_atMem,
      setCache_atMem]
    exact (apply_ite (atMem · x) _ _ _).symm
  | hitWbInvalidate c =>
    cases h : lookup s c pa <;> simp only [CacheAction.perform, opHitWbInvalidate, h, cfg_atMem, cache_atMem, lookup_atMem,
      setCache_atMem]
    exact (apply_ite (atMem · x) _ _ _).symm

/-! ### What a data access changes -/

/-- `s` with what a data access may change: memory, DCACHE, the log of the devices and the count of draws. -/
def State.withData (s : State) (m : Memory) (k : Cache) (l : List DeviceAccess) (n : Nat) : State :=
  { s with mem := m, dcache := k, devLog := l, draws := n }

/-- The commit of an instruction alone after a data access. -/
theorem commit_withData (s : State) (m : Memory) (k : Cache) (l : List DeviceAccess) (n : Nat) (y : Snapshot) :
    let t := commit (atWb { s.withData m k l n with intShadow := false } y) y
    t.mem = m ∧ t.dcache = k ∧ t.devLog = l ∧ t.draws = n ∧ onlyData s t y.pc ∧
      (∀ rt, y.dest = .reg rt → gets t rt y.result ∧ sameGprBut rt s t) ∧ (y.dest = .none → sameGpr s t) := by
  intro t
  obtain ⟨hhilo, hcp0, -, ⟨hicache, -, hbus⟩, ⟨hcycle, hload, -, hcfg, hpc⟩, hcommitted⟩ := commit_atWb_same (s.withData m k l n) y
  refine ⟨commit_mem _ _, commit_dcache _ _, commit_devLog _ _, commit_draws _ _,
    ⟨hhilo, hcp0, hicache, hbus, hcycle, hcfg, hpc, hload, hcommitted⟩, fun rt hd => ?_, fun hd => ?_⟩
  · obtain ⟨hgets, hbut, -⟩ := commit_onlyGpr (s.withData m k l n) hd
    exact ⟨hgets, hbut⟩
  · obtain ⟨-, -, hgpr, -⟩ := commit_onlyCp0 (s.withData m k l n) hd
    exact hgpr

/-! ### The record taken -/

theorem selectFrom_of_least {r : ExcRecord} {recs : List ExcRecord} (h : ∀ x ∈ recs, x = r ∨ r.rank < x.rank) :
    ∀ {best : ExcRecord}, best = r ∨ (r ∈ recs ∧ r.rank < best.rank) → selectFrom best recs = r := by
  induction recs with
  | nil => rintro best (rfl | ⟨hr, -⟩) <;> [rfl; cases hr]
  | cons x xs ih =>
    intro best hbest
    refine ih (fun y hy => h y (List.mem_cons_of_mem _ hy)) ?_
    split
    · rename_i hlt
      rcases h x List.mem_cons_self with rfl | hx
      · exact .inl rfl
      · rcases hbest with rfl | ⟨hr, -⟩
        · exact absurd hlt (Nat.not_lt_of_lt hx)
        · rcases List.mem_cons.mp hr with rfl | hr
          · exact .inl rfl
          · exact .inr ⟨hr, hx⟩
    · rename_i hge
      rcases hbest with rfl | ⟨hr, hlt⟩
      · exact .inl rfl
      · rcases List.mem_cons.mp hr with rfl | hr
        · exact absurd hlt hge
        · exact .inr ⟨hr, hlt⟩

/-- A record is selected if no other of the buffer has its rank or a higher one (R472, R473). -/
theorem selectRecord_of_least {r : ExcRecord} {recs : List ExcRecord} (hr : r ∈ recs)
    (h : ∀ x ∈ recs, x = r ∨ r.rank < x.rank) : selectRecord recs = some r := by
  cases recs with
  | nil => cases hr
  | cons x xs =>
    refine congrArg some (selectFrom_of_least (fun y hy => h y (List.mem_cons_of_mem _ hy)) ?_)
    rcases List.mem_cons.mp hr with rfl | hr
    · exact .inl rfl
    · exact (h x List.mem_cons_self).imp id fun hx => ⟨hr, hx⟩

/-! ### The forms -/

/-- The snapshot `i`, alone at `p`, enters MEM with, its checks in ID passed. -/
def accessing (i : Instr) (s : State) (p : Word) : Snapshot := accessSnapshot s p (encode i) (decodeOut i) []

/-- `i` computes its effective address from `base` and `off` and does `work` in MEM; ID asks for coprocessor `n`. -/
structure IsAccess (i : Instr) (base : Reg) (off : BitVec 16) (n : Option (BitVec 2)) (work : State → MemWork) : Prop where
  exec : exec i = stages (decodeOut i) n addressOf noEffect (memStep false work)
  ea   : ∀ s p, (accessing i s p).ea = readGpr s base + off.signExtend 32

section
variable {i : Instr} {base : Reg} {off : BitVec 16} {n : Option (BitVec 2)} {work : State → MemWork} {s s' : State} {p : Word}
  (h : IsAccess i base off n work) (hc : copCheck s n = [])
include h hc

/-- The passage whose access is done with nothing recorded commits. -/
theorem IsAccess.commits {y : Snapshot} (hn : noInterrupt s) (hw : work (atMem s (accessing i s p)) = .done (atMem s' y))
    (hy : y.exc = []) (hs : s'.intShadow = s.intShadow) :
    runsTo i s p (commit (atWb { s' with intShadow := false } y) y) := by
  rw [runsTo, runAlone, h.exec]
  exact passAlone_access hc hn hw hy hs

/-- The passage whose access is to be retried ends in MEM. -/
theorem IsAccess.retries {t : State} (hn : noInterrupt s) (hw : work (atMem s (accessing i s p)) = .stall t) :
    runsTo i s p { t with stall := true } := by
  rw [runsTo, runAlone, h.exec]
  exact passAlone_stall hc hn hw

/-- It stalls, if it has changed no more than the caches. -/
theorem IsAccess.stalls {ki kd : Cache} {b : Bool} (hn : noInterrupt s)
    (hw : work (atMem s (accessing i s p)) =
      .stall (atMem { s with icache := ki, dcache := kd } { accessing i s p with memIssued := b })) :
    ∃ t, runsTo i s p t ∧ stallsInMem i s t p (readGpr s base + off.signExtend 32) b ∧ t.icache = ki ∧ t.dcache = kd := by
  exact ⟨_, h.retries hc hn hw, stallsInMem_atMem (y := { accessing i s p with memIssued := b }) ki kd
    ⟨rfl, rfl, rfl, h.ea s p, rfl, rfl, rfl, rfl⟩, rfl, rfl⟩

/-- The passage that ends MEM with `recs` takes the record `r` of them, an interrupt requested or not, if no other has
its rank or a higher one. -/
theorem IsAccess.takes {r : ExcRecord} {recs : List ExcRecord}
    (hw : ∀ pre, pre = [] ∨ pre = [{ kind := .int, mode := .any }] →
      work (atMem s { accessing i s p with exc := pre }) = .done (atMem s { accessing i s p with exc := pre ++ recs }))
    (hr : r ∈ recs) (hleast : ∀ x ∈ recs, x = r ∨ r.rank < x.rank) (hrank : r.rank < 90) : traps i s p r := by
  have hint : r.rank < ExcRecord.rank { kind := .int, mode := .any } := hrank
  obtain ⟨y, b, hy⟩ := passAlone_access_traps (d := decodeOut i) (n := n) (work := work) (s := s) (p := p) (w := encode i)
    (r := r) fun pre hpre => by
      rw [hc, List.nil_append]
      refine ⟨{ accessing i s p with exc := pre ++ recs }, hw pre hpre, rfl, selectRecord_of_least (List.mem_append_right pre hr) ?_⟩
      intro x hx
      rcases List.mem_append.mp hx with hx | hx
      · rcases hpre with rfl | rfl
        · cases hx
        · exact .inr (List.mem_singleton.mp hx ▸ hint)
      · exact hleast x hx
  refine ⟨_, ?_, tookException_takeException s y b p r⟩
  rw [runsTo, runAlone, h.exec]
  exact hy

/-- The passage that ends MEM with one record, found only when no interrupt was, takes it. -/
theorem IsAccess.takes_uninterrupted {r : ExcRecord} (hn : noInterrupt s)
    (hw : work (atMem s (accessing i s p)) = .done (atMem s { accessing i s p with exc := [r] })) : traps i s p r := by
  refine ⟨_, ?_, tookException_takeException s { accessing i s p with exc := [r] } false p r⟩
  have hm : memStep false work (atMem s (accessSnapshot s p (encode i) (decodeOut i) [])) = _ := memStep_done hn hw rfl
  rw [runsTo, runAlone, h.exec, passAlone_stages, hc, exStage_access, andThen_next, advance_atEx, hm]
  exact wbStage_alone_record { s with intShadow := false } { accessing i s p with exc := [r] } r rfl

end

/-! ### The ends of an access -/

theorem loadWork_done {read : State → Access} {extend : State → Snapshot → Word → Word} {s t : State} {v : Word}
    (h : read s = .done v t) : loadWork read extend s = .done (t.setMem { t.pipe.mem with result := extend t t.pipe.mem v }) := by
  rw [loadWork, h]

theorem loadWork_stall {read : State → Access} {extend : State → Snapshot → Word → Word} {s t : State}
    (h : read s = .stall t) : loadWork read extend s = .stall t := by
  rw [loadWork, h]

theorem loadWork_faulted {read : State → Access} {extend : State → Snapshot → Word → Word} {s t : State}
    (h : read s = .faulted t) : loadWork read extend s = .done t := by
  rw [loadWork, h]

theorem storeWork_done {write : State → Access} {s t : State} {v : Word} (h : write s = .done v t) :
    storeWork write s = .done t := by
  rw [storeWork, h]

theorem storeWork_stall {write : State → Access} {s t : State} (h : write s = .stall t) : storeWork write s = .stall t := by
  rw [storeWork, h]

theorem storeWork_faulted {write : State → Access} {s t : State} (h : write s = .faulted t) : storeWork write s = .done t := by
  rw [storeWork, h]

/-! ### Loads -/

/-- `i` loads `w` at the place `place` of its effective address into `rt`, `extend` giving the register's value from the
byte order, the effective address, the old value and the value read. -/
structure IsLoad (i : Instr) (base rt : Reg) (off : BitVec 16) (place : Word → Word) (w : Width)
    (extend : Endian → Word → Word → Word → Word) : Prop
    extends IsAccess i base off none (loadWork (fun t => memRead t (place t.pipe.mem.ea) t.pipe.mem.ea w)
      (fun t x v => extend t.cfg.endian x.ea x.storeData v)) where
  dest : (decodeOut i).dest = .reg rt
  old  : ∀ s p e a v, extend e a (accessing i s p).storeData v = extend e a (readGpr s rt) v

section
variable (base rt : Reg) (off : BitVec 16)

theorem isLoad_lb : IsLoad (.lb base rt off) base rt off (fun a => a) .byte (fun _ _ _ => signByte) :=
  ⟨⟨rfl, fun _ _ => rfl⟩, rfl, fun _ _ _ _ _ => rfl⟩

theorem isLoad_lbu : IsLoad (.lbu base rt off) base rt off (fun a => a) .byte (fun _ _ _ v => v) :=
  ⟨⟨rfl, fun _ _ => rfl⟩, rfl, fun _ _ _ _ _ => rfl⟩

theorem isLoad_lh : IsLoad (.lh base rt off) base rt off (fun a => a) .half (fun _ _ _ => signHalf) :=
  ⟨⟨rfl, fun _ _ => rfl⟩, rfl, fun _ _ _ _ _ => rfl⟩

theorem isLoad_lhu : IsLoad (.lhu base rt off) base rt off (fun a => a) .half (fun _ _ _ v => v) :=
  ⟨⟨rfl, fun _ _ => rfl⟩, rfl, fun _ _ _ _ _ => rfl⟩

theorem isLoad_lw : IsLoad (.lw base rt off) base rt off (fun a => a) .word (fun _ _ _ v => v) :=
  ⟨⟨rfl, fun _ _ => rfl⟩, rfl, fun _ _ _ _ _ => rfl⟩

theorem isLoad_lwl :
    IsLoad (.lwl base rt off) base rt off alignedWord .word (fun e a r v => lwlMerge e (byteInWord a) v r) :=
  ⟨⟨rfl, fun _ _ => rfl⟩, rfl, fun _ _ _ _ _ => rfl⟩

theorem isLoad_lwr :
    IsLoad (.lwr base rt off) base rt off alignedWord .word (fun e a r v => lwrMerge e (byteInWord a) v r) :=
  ⟨⟨rfl, fun _ _ => rfl⟩, rfl, fun _ _ _ _ _ => rfl⟩

end

section
variable {i : Instr} {base rt : Reg} {off : BitVec 16} {place : Word → Word} {w : Width}
  {extend : Endian → Word → Word → Word → Word} {s : State} {p ea pa : Word} {c : Bool}
  (h : IsLoad i base rt off place w extend) (hea : ea = readGpr s base + off.signExtend 32)
include h hea

/-- A load that passes its checks and whose read is performed gets the value read. -/
theorem IsLoad.completes {m : Memory} {k : Cache} {l : List DeviceAccess} {n : Nat} {v : Word} (hn : noInterrupt s)
    (ha : aligned (place ea) w = true) (hr : reaches s (place ea) .load pa c)
    (hread : ∀ x, readAt (atMem s x) pa c w ea = .done v (atMem (s.withData m k l n) x)) :
    ∃ t, runsTo i s p t ∧ gets t rt (extend s.cfg.endian ea (readGpr s rt) v) ∧ sameGprBut rt s t ∧ t.mem = m ∧
      t.dcache = k ∧ t.devLog = l ∧ t.draws = n ∧ onlyData s t p := by
  have hx : (accessing i s p).ea = ea := (h.ea s p).trans hea.symm
  have hw := (memRead_reaches (s := atMem s (accessing i s p)) (bad := ea) rfl ha hr).trans (hread _)
  rw [← hx] at hw
  have hrun := h.commits (s' := s.withData m k l n) (y := { accessing i s p with
    result := extend s.cfg.endian (accessing i s p).ea (accessing i s p).storeData v }) rfl hn
    (loadWork_done (t := atMem (s.withData m k l n) (accessing i s p)) (v := v) hw) rfl rfl
  obtain ⟨hmem, hdcache, hlog, hdraws, honly, hgpr, -⟩ := commit_withData s m k l n { accessing i s p with
    result := extend s.cfg.endian (accessing i s p).ea (accessing i s p).storeData v }
  obtain ⟨hgets, hbut⟩ := hgpr rt h.dest
  have hv : extend s.cfg.endian (accessing i s p).ea (accessing i s p).storeData v = extend s.cfg.endian ea (readGpr s rt) v := by
    rw [h.old, hx]
  exact ⟨_, hrun, hgets.trans (congrArg (fun v => if rt = 0 then 0#32 else v) hv), hbut, hmem, hdcache, hlog, hdraws, honly⟩

/-- A load that passes its checks and whose line DCACHE cannot give stalls. -/
theorem IsLoad.stalls {k : Cache} (hn : noInterrupt s) (ha : aligned (place ea) w = true)
    (hr : reaches s (place ea) .load pa c)
    (hread : ∀ x, readAt (atMem s x) pa c w ea = .stall (atMem { s with dcache := k } x)) :
    ∃ t, runsTo i s p t ∧ stallsInMem i s t p ea false ∧ t.icache = s.icache ∧ t.dcache = k := by
  have hx : (accessing i s p).ea = ea := (h.ea s p).trans hea.symm
  have hw := (memRead_reaches (s := atMem s (accessing i s p)) (bad := ea) rfl ha hr).trans (hread _)
  rw [← hx] at hw
  rw [hea]
  exact h.toIsAccess.stalls (ki := s.icache) (b := false) rfl hn (loadWork_stall hw)

/-- A load with records of its checks takes the one of highest priority. -/
theorem IsLoad.takes {r : ExcRecord}
    (hr : r ∈ alignCheck (place ea) w .load ++ (addressTranslate s (place ea) ea .load).recs)
    (hleast : ∀ x ∈ alignCheck (place ea) w .load ++ (addressTranslate s (place ea) ea .load).recs, x = r ∨ r.rank < x.rank)
    (hrank : r.rank < 90) : traps i s p r := by
  have hx : (accessing i s p).ea = ea := (h.ea s p).trans hea.symm
  refine h.toIsAccess.takes rfl (fun pre _ => ?_) hr hleast hrank
  have hw := memRead_faulted (s := atMem s { accessing i s p with exc := pre }) (va := place ea) (bad := ea) (w := w)
    (List.append_ne_nil_of_right_ne_nil _ (List.ne_nil_of_mem hr))
  rw [← hx] at hw ⊢
  exact loadWork_faulted hw

/-- An uncached load that is sent to a misaligned place takes the Mapper's address error. -/
theorem IsLoad.takes_mapperError (hn : noInterrupt s) (ha : aligned (place ea) w = true) (hr : reaches s (place ea) .load pa false)
    (hp : aligned pa w = false) : traps i s p { kind := .addrErr, mode := .load, badVAddr := ea } := by
  have hx : (accessing i s p).ea = ea := (h.ea s p).trans hea.symm
  have hw := (memRead_reaches (s := atMem s (accessing i s p)) (bad := ea) rfl ha hr).trans (readAt_misaligned hp)
  refine h.toIsAccess.takes_uninterrupted rfl hn ?_
  rw [← hx] at hw ⊢
  exact loadWork_faulted hw

end

/-! ### Stores -/

/-- `i` makes the stores `items` gives for the byte order, the effective address and the value of `rt`. -/
structure IsStore (i : Instr) (base rt : Reg) (off : BitVec 16) (items : Endian → Word → Word → List StoreItem) : Prop
    extends IsAccess i base off none (storeWork fun t => memWrite t t.pipe.mem.ea
      (items t.cfg.endian t.pipe.mem.ea t.pipe.mem.storeData)) where
  dest : (decodeOut i).dest = .none
  data : ∀ s p, (accessing i s p).storeData = readGpr s rt

section
variable (base rt : Reg) (off : BitVec 16)

theorem isStore_sb : IsStore (.sb base rt off) base rt off (fun _ a r => [{ va := a, width := .byte, value := r }]) :=
  ⟨⟨rfl, fun _ _ => rfl⟩, rfl, fun _ _ => rfl⟩

theorem isStore_sh : IsStore (.sh base rt off) base rt off (fun _ a r => [{ va := a, width := .half, value := r }]) :=
  ⟨⟨rfl, fun _ _ => rfl⟩, rfl, fun _ _ => rfl⟩

theorem isStore_sw : IsStore (.sw base rt off) base rt off (fun _ a r => [{ va := a, width := .word, value := r }]) :=
  ⟨⟨rfl, fun _ _ => rfl⟩, rfl, fun _ _ => rfl⟩

theorem isStore_swl : IsStore (.swl base rt off) base rt off swlItems := ⟨⟨rfl, fun _ _ => rfl⟩, rfl, fun _ _ => rfl⟩

theorem isStore_swr : IsStore (.swr base rt off) base rt off swrItems := ⟨⟨rfl, fun _ _ => rfl⟩, rfl, fun _ _ => rfl⟩

end

/-! The checks and the place of SB, SH and SW. -/

theorem storeRecs_single {s : State} {ea pa r : Word} {w : Width} {c : Bool} (ha : aligned ea w = true)
    (hr : reaches s ea .store pa c) : storeRecs s ea [{ va := ea, width := w, value := r }] = [] := by
  have hr : addressTranslate s ea ea .store = { pa := some pa, cacheable := c, recs := [] } := hr
  simp [storeRecs, alignCheck_aligned ha, hr]

theorem storeTarget_single {s : State} {ea pa r : Word} {w : Width} {c : Bool} (hr : reaches s ea .store pa c) :
    [{ va := ea, width := w, value := r }].map (storeTarget s ea) = [{ pa := pa, cacheable := c, width := w, value := r }] := by
  have hr : addressTranslate s ea ea .store = { pa := some pa, cacheable := c, recs := [] } := hr
  simp [storeTarget, hr]

theorem storeErrors_single {s : State} {ea pa r : Word} {w : Width} {c : Bool} (hr : reaches s ea .store pa c)
    (h : c = true ∨ aligned pa w = true) : storeErrors ea ([{ va := ea, width := w, value := r }].map (storeTarget s ea)) = [] := by
  rw [storeTarget_single hr]
  refine storeErrors_eq_nil fun t ht => ?_
  rwa [List.mem_singleton.mp ht]

section
variable {i : Instr} {base rt : Reg} {off : BitVec 16} {items : Endian → Word → Word → List StoreItem} {l : List StoreItem}
  {s : State} {p ea : Word} (h : IsStore i base rt off items) (hea : ea = readGpr s base + off.signExtend 32)
  (hl : l = items s.cfg.endian ea (readGpr s rt))
include h hea hl

/-- A store that passes its checks goes on to its places. -/
theorem IsStore.write (hrecs : storeRecs s ea l = []) :
    memWrite (atMem s (accessing i s p)) (accessing i s p).ea
        (items s.cfg.endian (accessing i s p).ea (accessing i s p).storeData) =
      writeAt (atMem s (accessing i s p)) ea (l.map (storeTarget s ea)) := by
  rw [h.ea, ← hea, h.data, ← hl]
  exact memWrite_reaches (s := atMem s (accessing i s p)) rfl hrecs

/-- Its lines ready and no error of the Mapper met, it is performed. -/
theorem IsStore.completes {m : Memory} {k : Cache} {log : List DeviceAccess} {n : Nat} (hn : noInterrupt s)
    (hrecs : storeRecs s ea l = []) (herr : storeErrors ea (l.map (storeTarget s ea)) = [])
    (hready : storesReady s (l.map (storeTarget s ea)) = (true, s))
    (hall : storeAll s (l.map (storeTarget s ea)) = s.withData m k log n) :
    ∃ t, runsTo i s p t ∧ sameGpr s t ∧ t.mem = m ∧ t.dcache = k ∧ t.devLog = log ∧ t.draws = n ∧ onlyData s t p := by
  have hw := h.write hea hl hrecs (p := p)
  rw [writeAt_ok herr, storesReady_atMem, hready, storeAll_atMem, hall] at hw
  have hrun := h.commits (s' := s.withData m k log n) (y := accessing i s p) rfl hn (storeWork_done hw) rfl rfl
  obtain ⟨hmem, hdcache, hlog, hdraws, honly, -, hgpr⟩ := commit_withData s m k log n (accessing i s p)
  exact ⟨_, hrun, hgpr h.dest, hmem, hdcache, hlog, hdraws, honly⟩

/-- One of its lines not to be had from DCACHE, it stalls. -/
theorem IsStore.stalls {k : Cache} (hn : noInterrupt s) (hrecs : storeRecs s ea l = [])
    (herr : storeErrors ea (l.map (storeTarget s ea)) = [])
    (hready : storesReady s (l.map (storeTarget s ea)) = (false, { s with dcache := k })) :
    ∃ t, runsTo i s p t ∧ stallsInMem i s t p ea false ∧ t.icache = s.icache ∧ t.dcache = k := by
  have hw := h.write hea hl hrecs (p := p)
  rw [writeAt_ok herr, storesReady_atMem, hready] at hw
  rw [hea]
  exact h.toIsAccess.stalls (ki := s.icache) (b := false) rfl hn (storeWork_stall hw)

/-- An error of the Mapper for one of its places, it takes the record. -/
theorem IsStore.takes_mapperError {r : ExcRecord} (hn : noInterrupt s) (hrecs : storeRecs s ea l = [])
    (herr : storeErrors ea (l.map (storeTarget s ea)) = [r]) : traps i s p r := by
  have hw := h.write hea hl hrecs (p := p)
  rw [writeAt, herr] at hw
  exact h.toIsAccess.takes_uninterrupted rfl hn (storeWork_faulted hw)

/-- A store with records of its checks takes the one of highest priority. -/
theorem IsStore.takes {r : ExcRecord} (hr : r ∈ storeRecs s ea l)
    (hleast : ∀ x ∈ storeRecs s ea l, x = r ∨ r.rank < x.rank) (hrank : r.rank < 90) : traps i s p r := by
  have hx : (accessing i s p).ea = ea := (h.ea s p).trans hea.symm
  refine h.toIsAccess.takes rfl (fun pre _ => ?_) hr hleast hrank
  have hw := memWrite_faulted (s := atMem s { accessing i s p with exc := pre }) (bad := ea) (items := l)
    (List.append_ne_nil_of_right_ne_nil _ (List.ne_nil_of_mem hr))
  refine storeWork_faulted (Eq.trans ?_ hw)
  rw [hl, ← hx, ← h.data s p]
  rfl

end

end Sys2Proof.Machine
end

section
/-! O17, O18. The records of a data access that its checks or the Mapper turn away (spec/20_memory.md R105 to R107, R110,
R122, R123, spec/42_load_store.md R381, R397), and where the byte stores of SWL and SWR stand in their word (R396). -/

namespace Sys2Proof.Machine

/-! ### The word around an address -/

theorem alignedWord_toNat (a : Word) : (alignedWord a).toNat % 4 = 0 ∧ (alignedWord a).toNat + a.toNat % 4 = a.toNat := by
  have low (x : Word) : (x &&& 3#32).toNat = x.toNat % 4 := (BitVec.toNat_and _ _).trans (Nat.and_two_pow_sub_one_eq_mod _ 2)
  have hzero : alignedWord a &&& 3#32 = 0#32 := by
    rw [alignedWord, BitVec.and_assoc]
    exact BitVec.and_zero
  have hsum : alignedWord a + (a &&& 3#32) = a := by
    rw [BitVec.add_eq_or_of_and_eq_zero, alignedWord, ← BitVec.and_or_distrib_left]
    · exact BitVec.and_allOnes
    · rw [BitVec.and_comm a, ← BitVec.and_assoc, hzero, BitVec.zero_and]
  have h0 : (alignedWord a).toNat % 4 = 0 := by rw [← low, hzero]; rfl
  refine ⟨h0, ?_⟩
  have := congrArg BitVec.toNat hsum
  rw [BitVec.toNat_add, low] at this
  omega

/-- The bytes of the word around an address. -/
theorem toNat_alignedWord_add (a : Word) {k : Nat} (hk : k < 4) :
    (alignedWord a + BitVec.ofNat 32 k).toNat = (alignedWord a).toNat + k := by
  have := (alignedWord_toNat a).1
  rw [BitVec.toNat_add, BitVec.toNat_ofNat]
  omega

theorem eq_alignedWord_add (a : Word) : a = alignedWord a + BitVec.ofNat 32 (a.toNat % 4) := by
  apply BitVec.eq_of_toNat_eq
  rw [toNat_alignedWord_add a (Nat.mod_lt _ (by decide)), (alignedWord_toNat a).2]

theorem byteInWord_eq (a : Word) : byteInWord a = a.toNat % 4 :=
  (BitVec.toNat_and _ _).trans (Nat.and_two_pow_sub_one_eq_mod _ 2)

theorem aligned_alignedWord (a : Word) : aligned (alignedWord a) .word = true :=
  (aligned_iff _ _).mpr (alignedWord_toNat a).1

/-- The byte store of byte number `x.2` of `r` at offset `x.1` of the word at `a`. -/
def mergeItem (a r : Word) (x : Nat × Nat) : StoreItem :=
  { va := a + BitVec.ofNat 32 x.1, width := .byte, value := (byteOf r x.2).zeroExtend 32 }

/-- The byte stores of SWL at byte number `k`, as offsets in the word and byte numbers of the register (R396). -/
def swlBytes : Endian → Nat → List (Nat × Nat)
  | .big, 0 => [(0, 3), (1, 2), (2, 1), (3, 0)]
  | .big, 1 => [(1, 3), (2, 2), (3, 1)]
  | .big, 2 => [(2, 3), (3, 2)]
  | .big, _ => [(3, 3)]
  | .little, 0 => [(0, 3)]
  | .little, 1 => [(0, 2), (1, 3)]
  | .little, 2 => [(0, 1), (1, 2), (2, 3)]
  | .little, _ => [(0, 0), (1, 1), (2, 2), (3, 3)]

/-- The byte stores of SWR. -/
def swrBytes : Endian → Nat → List (Nat × Nat)
  | .big, 0 => [(0, 0)]
  | .big, 1 => [(0, 1), (1, 0)]
  | .big, 2 => [(0, 2), (1, 1), (2, 0)]
  | .big, _ => [(0, 3), (1, 2), (2, 1), (3, 0)]
  | .little, 0 => [(0, 0), (1, 1), (2, 2), (3, 3)]
  | .little, 1 => [(1, 0), (2, 1), (3, 2)]
  | .little, 2 => [(2, 0), (3, 1)]
  | .little, _ => [(3, 0)]

/-- An address as its aligned word and its byte number. -/
theorem alignedWord_split (ea : Word) :
    ∃ a k, k < 4 ∧ alignedWord ea = a ∧ byteInWord ea = k ∧ ea.toNat % 4 = k ∧ ea = a + BitVec.ofNat 32 k :=
  ⟨_, _, Nat.mod_lt _ (by decide), rfl, byteInWord_eq ea, rfl, eq_alignedWord_add ea⟩

theorem swlItems_eq (e : Endian) (ea r : Word) :
    swlItems e ea r = (swlBytes e (ea.toNat % 4)).map (mergeItem (alignedWord ea) r) := by
  obtain ⟨a, k, hk, ha, hb, hm, hea⟩ := alignedWord_split ea
  unfold swlItems
  rw [ha, hb, hm]
  interval_cases k <;> cases e <;> simp [swlBytes, mergeItem, byteItems, hea, BitVec.add_assoc]

theorem swrItems_eq (e : Endian) (ea r : Word) :
    swrItems e ea r = (swrBytes e (ea.toNat % 4)).map (mergeItem (alignedWord ea) r) := by
  obtain ⟨a, k, hk, ha, hb, hm, hea⟩ := alignedWord_split ea
  unfold swrItems
  rw [ha, hb, hm]
  interval_cases k <;> cases e <;> simp [swrBytes, mergeItem, byteItems, hea, BitVec.add_assoc]

/-- `i` makes the byte stores `bytes` gives for the byte order and the byte number, in the word around its address. -/
structure IsMerge (i : Instr) (base rt : Reg) (off : BitVec 16) (bytes : Endian → Nat → List (Nat × Nat)) : Prop
    extends IsStore i base rt off (fun e ea r => (bytes e (ea.toNat % 4)).map (mergeItem (alignedWord ea) r)) where
  nonempty : ∀ e k, bytes e k ≠ []
  offsets  : ∀ e k, ∀ x ∈ bytes e k, x.1 < 4

theorem isMerge_swl (base rt : Reg) (off : BitVec 16) : IsMerge (.swl base rt off) base rt off swlBytes := by
  have h := isStore_swl base rt off
  rw [show swlItems = _ from funext fun e => funext fun ea => funext fun r => swlItems_eq e ea r] at h
  exact ⟨h, fun e k => by unfold swlBytes; split <;> decide, fun e k => by unfold swlBytes; split <;> decide⟩

theorem isMerge_swr (base rt : Reg) (off : BitVec 16) : IsMerge (.swr base rt off) base rt off swrBytes := by
  have h := isStore_swr base rt off
  rw [show swrItems = _ from funext fun e => funext fun ea => funext fun r => swrItems_eq e ea r] at h
  exact ⟨h, fun e k => by unfold swrBytes; split <;> decide, fun e k => by unfold swrBytes; split <;> decide⟩

/-! ### Records of translation -/

theorem mem_alignCheck {x : ExcRecord} {va : Word} {w : Width} {mode : AccessMode} :
    x ∈ alignCheck va w mode ↔ aligned va w = false ∧ x = { kind := .addrErr, mode := mode, badVAddr := va } := by
  cases h : aligned va w <;> simp [alignCheck, h]

theorem mem_userCheck {x : ExcRecord} {s : State} {va bad : Word} {mode : AccessMode} :
    x ∈ userCheck s va bad mode ↔
      (s.userMode = true ∧ 0x80000000 ≤ va.toNat) ∧ x = { kind := .addrErr, mode := mode, badVAddr := bad } := by
  rw [userCheck_eq]
  split <;> simp_all

/-- Translate's records. -/
theorem mem_segmentMap_recs {x : ExcRecord} {s : State} {va bad : Word} {mode : AccessMode}
    (h : x ∈ (segmentMap s va bad mode).recs) :
    (∃ refill, x = { kind := .tlb, mode := mode, badVAddr := bad, refill }) ∨ x = { kind := .mod, mode := .store, badVAddr := bad } := by
  unfold segmentMap at h
  split at h
  · cases h
  · split at h
    · cases h
    · split at h
      · cases h
      · exact .inl ⟨_, List.mem_singleton.mp h⟩
      · exact .inr (List.mem_singleton.mp h)

/-- The bus error of a data access that is not Mapped. -/
theorem mem_mappedCheck {x : ExcRecord} {s : State} {pa : Option Word} {mode : AccessMode} (hm : mode ≠ .fetch)
    (h : x ∈ mappedCheck s pa mode) : x = { kind := .dbe, mode := mode } := by
  cases pa with
  | none => cases h
  | some pa =>
    rw [mappedCheck_some] at h
    split at h
    · cases h
    · simpa [hm] using h

/-- The address error ranks before whatever else translation of a load or a store records. -/
theorem addressTranslate_recs {s : State} {va bad : Word} {mode : AccessMode} (hm : mode = .load ∨ mode = .store) :
    ∀ x ∈ (addressTranslate s va bad mode).recs, x = { kind := .addrErr, mode := mode, badVAddr := bad } ∨ 50 < x.rank := by
  intro x hx
  have hf : mode ≠ .fetch := by rcases hm with rfl | rfl <;> nofun
  rcases List.mem_append.mp hx with hx | hx
  · rcases List.mem_append.mp hx with hx | hx
    · exact .inl (mem_userCheck.mp hx).2
    · rcases mem_segmentMap_recs hx with ⟨refill, rfl⟩ | rfl
      · rcases hm with rfl | rfl <;> exact .inr (by decide : 50 < 60)
      · exact .inr (by decide : 50 < 70)
  · rw [mem_mappedCheck hf hx]
    rcases hm with rfl | rfl <;> exact .inr (by decide : 50 < 80)

/-- The checks of one access: its alignment, then its translation. -/
def accessRecs (s : State) (va bad : Word) (w : Width) (mode : AccessMode) : List ExcRecord :=
  alignCheck va w mode ++ (addressTranslate s va bad mode).recs

/-- If an access at its own address, or at an aligned one, is misaligned or not allowed in user mode, the address error is
among its records. -/
theorem addrErr_mem {s : State} {va bad : Word} {w : Width} {mode : AccessMode} (hp : aligned va w = true ∨ va = bad)
    (herr : aligned va w = false ∨ s.userMode = true ∧ 0x80000000 ≤ va.toNat) :
    { kind := .addrErr, mode := mode, badVAddr := bad } ∈ accessRecs s va bad w mode := by
  rcases herr with h | h
  · exact List.mem_append_left _ (mem_alignCheck.mpr ⟨h, by rw [hp.resolve_left (by simp [h])]⟩)
  · exact List.mem_append_right _ (List.mem_append_left _ (List.mem_append_left _ (mem_userCheck.mpr ⟨h, rfl⟩)))

/-- No other of its records ranks as high. -/
theorem addrErr_least {s : State} {va bad : Word} {w : Width} {mode : AccessMode} (hp : aligned va w = true ∨ va = bad)
    (hm : mode = .load ∨ mode = .store) :
    ∀ x ∈ accessRecs s va bad w mode, x = { kind := .addrErr, mode := mode, badVAddr := bad } ∨ 50 < x.rank := by
  intro x hx
  rcases List.mem_append.mp hx with hx | hx
  · obtain ⟨h, rfl⟩ := mem_alignCheck.mp hx
    exact .inl (by rw [hp.resolve_left (by simp [h])])
  · exact addressTranslate_recs hm x hx

/-! ### Address errors -/

section
variable {i : Instr} {base rt : Reg} {off : BitVec 16} {place : Word → Word} {w : Width}
  {extend : Endian → Word → Word → Word → Word} {bytes : Endian → Nat → List (Nat × Nat)} {s : State} {p ea : Word}
  (hea : ea = readGpr s base + off.signExtend 32)
include hea

theorem IsLoad.addrErr (h : IsLoad i base rt off place w extend) (hp : aligned (place ea) w = true ∨ place ea = ea)
    (herr : aligned (place ea) w = false ∨ s.userMode = true ∧ 0x80000000 ≤ (place ea).toNat) :
    traps i s p { kind := .addrErr, mode := .load, badVAddr := ea } :=
  h.takes hea (addrErr_mem hp herr) (addrErr_least hp (.inl rfl)) (by decide : 50 < 90)

/-- A store whose items are at its own address, or aligned. -/
theorem IsStore.addrErr {items : Endian → Word → Word → List StoreItem} (h : IsStore i base rt off items)
    (hp : ∀ x ∈ items s.cfg.endian ea (readGpr s rt), aligned x.va x.width = true ∨ x.va = ea)
    (herr : ∃ x ∈ items s.cfg.endian ea (readGpr s rt),
      aligned x.va x.width = false ∨ s.userMode = true ∧ 0x80000000 ≤ x.va.toNat) :
    traps i s p { kind := .addrErr, mode := .store, badVAddr := ea } := by
  obtain ⟨x, hx, herr⟩ := herr
  refine h.takes hea rfl (List.mem_flatMap.mpr ⟨x, hx, addrErr_mem (hp x hx) herr⟩) (fun y hy => ?_) (by decide : 50 < 90)
  obtain ⟨z, hz, hy⟩ := List.mem_flatMap.mp hy
  exact addrErr_least (hp z hz) (.inr rfl) y hy

end

/-- The bytes of the word around an address are in its half of the address space. -/
theorem user_alignedWord {ea : Word} {k : Nat} (hk : k < 4) : 0x80000000 ≤ (alignedWord ea + BitVec.ofNat 32 k).toNat ↔
    0x80000000 ≤ ea.toNat := by
  have := alignedWord_toNat ea
  rw [toNat_alignedWord_add ea hk]
  omega

theorem IsMerge.addrErr {i : Instr} {base rt : Reg} {off : BitVec 16} {bytes : Endian → Nat → List (Nat × Nat)} {s : State}
    {p ea : Word} (hea : ea = readGpr s base + off.signExtend 32) (h : IsMerge i base rt off bytes)
    (huser : s.userMode = true ∧ 0x80000000 ≤ ea.toNat) :
    traps i s p { kind := .addrErr, mode := .store, badVAddr := ea } := by
  refine IsStore.addrErr hea h.toIsStore (fun x hx => ?_) ?_
  · obtain ⟨y, -, rfl⟩ := List.mem_map.mp hx
    exact .inl rfl
  · obtain ⟨y, hy⟩ := List.exists_mem_of_ne_nil _ (h.nonempty s.cfg.endian (ea.toNat % 4))
    exact ⟨_, List.mem_map_of_mem hy, .inr ⟨huser.1, (user_alignedWord (h.offsets _ _ y hy)).mpr huser.2⟩⟩

/-- SB, SH and SW. -/
theorem IsStore.addrErr_single {i : Instr} {base rt : Reg} {off : BitVec 16} {w : Width} {s : State} {p ea : Word}
    (hea : ea = readGpr s base + off.signExtend 32)
    (h : IsStore i base rt off fun _ a r => [{ va := a, width := w, value := r }])
    (herr : aligned ea w = false ∨ s.userMode = true ∧ 0x80000000 ≤ ea.toNat) :
    traps i s p { kind := .addrErr, mode := .store, badVAddr := ea } :=
  IsStore.addrErr hea h (fun x hx => .inr (by rw [List.mem_singleton.mp hx])) ⟨_, List.mem_singleton_self _, herr⟩

/-! ### CACHE -/

theorem isAccess_cache (base : Reg) (op : Nat) (off : BitVec 16) :
    IsAccess (.cache base op off) base off (some 0#2) (cacheWork op) := ⟨rfl, fun _ _ => rfl⟩

theorem copCheck_allowed {s : State} {z : BitVec 2} (h : copAllowed s z = true) : copCheck s (some z) = [] := by
  simp [copCheck, h]

/-- CACHE not yet issued whose translation fails does nothing. -/
theorem cacheWork_faulted {op : Nat} {s : State} (hi : s.pipe.mem.memIssued = false)
    (h : (addressTranslateUnchecked s s.pipe.mem.ea .load).recs ≠ []) :
    cacheWork op s = .done (s.raiseMem (addressTranslateUnchecked s s.pipe.mem.ea .load).recs) := by
  unfold cacheWork
  rw [hi, if_neg nofun]
  exact if_pos (List.append_ne_nil_of_right_ne_nil _ h)

/-- CACHE with records of its translation takes the one of highest priority. -/
theorem cache_traps {base : Reg} {op : Nat} {off : BitVec 16} {s : State} {p ea : Word} {r : ExcRecord}
    (hea : ea = readGpr s base + off.signExtend 32) (hc : copAllowed s 0#2 = true)
    (hr : r ∈ (addressTranslateUnchecked s ea .load).recs)
    (hleast : ∀ x ∈ (addressTranslateUnchecked s ea .load).recs, x = r ∨ r.rank < x.rank) (hrank : r.rank < 90) :
    traps (.cache base op off) s p r := by
  have h := isAccess_cache base op off
  have hx := (h.ea s p).trans hea.symm
  refine h.takes (copCheck_allowed hc) (fun pre _ => ?_) hr hleast hrank
  rw [← hx] at hr ⊢
  exact cacheWork_faulted (s := atMem s { accessing (.cache base op off) s p with exc := pre }) rfl (List.ne_nil_of_mem hr)

theorem cache_addrErr {base : Reg} {op : Nat} {off : BitVec 16} {s : State} {p ea : Word}
    (hea : ea = readGpr s base + off.signExtend 32) (hc : copAllowed s 0#2 = true)
    (huser : s.userMode = true ∧ 0x80000000 ≤ ea.toNat) :
    traps (.cache base op off) s p { kind := .addrErr, mode := .load, badVAddr := ea } := by
  refine cache_traps hea hc (List.mem_append_left _ (mem_userCheck.mpr ⟨huser, rfl⟩)) (fun x hx => ?_) (by decide : 50 < 90)
  exact addressTranslate_recs (s := s) (.inl rfl) x (List.mem_append_left _ hx)

/-- Settles O17: the address error is among the access's records and ranks before the others. -/
theorem addressErrorTraps : Obligations.AddressErrorTraps := by
  intro s p base rt off op ea adel ades
  have misaligned {w : Width} (h : ea.toNat % w.bytes ≠ 0) : aligned ea w = false :=
    Bool.eq_false_iff.mpr (mt (aligned_iff ea w).mp h)
  refine ⟨fun h => ?_, fun h => ?_, fun hu h => ⟨?_, ?_, fun hc => ?_⟩⟩
  · have hw : aligned ea .half = false := misaligned h
    exact ⟨(isLoad_lh base rt off).addrErr rfl (.inr rfl) (.inl hw), (isLoad_lhu base rt off).addrErr rfl (.inr rfl) (.inl hw),
      (isStore_sh base rt off).addrErr_single rfl (.inl hw)⟩
  · have hw : aligned ea .word = false := misaligned h
    exact ⟨(isLoad_lw base rt off).addrErr rfl (.inr rfl) (.inl hw), (isStore_sw base rt off).addrErr_single rfl (.inl hw)⟩
  · have here {i w extend} (hi : IsLoad i base rt off (fun a => a) w extend) : traps i s p adel :=
      hi.addrErr rfl (.inr rfl) (.inr ⟨hu, h⟩)
    have word {i extend} (hi : IsLoad i base rt off alignedWord .word extend) : traps i s p adel := by
      refine hi.addrErr rfl (.inl (aligned_alignedWord ea)) (.inr ⟨hu, ?_⟩)
      simpa using (user_alignedWord (show 0 < 4 by decide)).mpr h
    simp only [List.forall_mem_cons]
    exact ⟨here (isLoad_lb _ _ _), here (isLoad_lbu _ _ _), here (isLoad_lh _ _ _), here (isLoad_lhu _ _ _),
      here (isLoad_lw _ _ _), word (isLoad_lwl _ _ _), word (isLoad_lwr _ _ _), nofun⟩
  · simp only [List.forall_mem_cons]
    exact ⟨(isStore_sb _ _ _).addrErr_single rfl (.inr ⟨hu, h⟩), (isStore_sh _ _ _).addrErr_single rfl (.inr ⟨hu, h⟩),
      (isStore_sw _ _ _).addrErr_single rfl (.inr ⟨hu, h⟩), IsMerge.addrErr rfl (isMerge_swl _ _ _) ⟨hu, h⟩,
      IsMerge.addrErr rfl (isMerge_swr _ _ _) ⟨hu, h⟩, nofun⟩
  · exact cache_addrErr rfl (by simp [copAllowed, hc]) ⟨hu, h⟩

end Sys2Proof.Machine
end

section
/-! O18. Accesses that Translate, the memory map or the Mapper turns away (spec/20_memory.md R106, R107, R110, R123). -/

namespace Sys2Proof.Machine

/-! ### The one record of an access turned away -/

section
variable {s : State} {va bad : Word} {w : Width} {mode : AccessMode} (hu : s.userMode = false ∨ va.toNat < 0x80000000)
include hu

theorem userCheck_allowed : userCheck s va bad mode = [] := by
  rw [userCheck_eq, if_neg]
  rintro ⟨h, hlt⟩
  rcases hu with hu | hu
  · exact Bool.false_ne_true (hu.symm.trans h)
  · omega

variable (ha : aligned va w = true)
include ha

theorem accessRecs_allowed : accessRecs s va bad w mode =
    (segmentMap s va bad mode).recs ++ mappedCheck s (segmentMap s va bad mode).pa mode := by
  rw [accessRecs, alignCheck_aligned ha, addressTranslate, userCheck_allowed hu]
  rfl

/-- Translate answers a fault. -/
theorem accessRecs_tlb {refill : Bool} (hw : Walked va) (ht : translate s.cfg va mode = .tlbFault refill) :
    accessRecs s va bad w mode = [{ kind := .tlb, mode := mode, badVAddr := bad, refill }] := by
  rw [accessRecs_allowed hu ha, segmentMap_walked hw, ht]
  rfl

/-- Translate answers that the page is not writable. -/
theorem accessRecs_mod (hw : Walked va) (ht : translate s.cfg va mode = .modFault) :
    accessRecs s va bad w mode = [{ kind := .mod, mode := .store, badVAddr := bad }] := by
  rw [accessRecs_allowed hu ha, segmentMap_walked hw, ht]
  rfl

/-- The physical address is not mapped. -/
theorem accessRecs_dbe {pa : Word} (hm : mode ≠ .fetch) (hp : (segmentMap s va bad mode).pa = some pa)
    (hmap : mapped s.cfg pa = false) : accessRecs s va bad w mode = [{ kind := .dbe, mode := mode }] := by
  have hrecs : (segmentMap s va bad mode).recs = [] := by
    unfold segmentMap at hp ⊢
    split
    · rfl
    · split
      · rfl
      · split <;> simp_all
  rw [accessRecs_allowed hu ha, hrecs, hp, mappedCheck_some, hmap]
  simp [hm]

end

section
variable {i : Instr} {base rt : Reg} {off : BitVec 16} {s : State} {p ea pa : Word} {r : ExcRecord}
  (hea : ea = readGpr s base + off.signExtend 32)
include hea

theorem IsLoad.takes_only {place : Word → Word} {w : Width} {extend : Endian → Word → Word → Word → Word}
    (h : IsLoad i base rt off place w extend) (hr : accessRecs s (place ea) ea w .load = [r]) (hrank : r.rank < 90) :
    traps i s p r := by
  refine h.takes hea ?_ ?_ hrank <;> rw [← accessRecs, hr]
  · exact List.mem_singleton_self r
  · exact fun x hx => .inl (List.mem_singleton.mp hx)

theorem IsStore.takes_only {items : Endian → Word → Word → List StoreItem} (h : IsStore i base rt off items)
    (hne : items s.cfg.endian ea (readGpr s rt) ≠ [])
    (hr : ∀ x ∈ items s.cfg.endian ea (readGpr s rt), accessRecs s x.va ea x.width .store = [r]) (hrank : r.rank < 90) :
    traps i s p r := by
  obtain ⟨x, hx⟩ := List.exists_mem_of_ne_nil _ hne
  have hmem : r ∈ accessRecs s x.va ea x.width .store := by
    rw [hr x hx]
    exact List.mem_singleton_self r
  refine h.takes hea rfl (List.mem_flatMap.mpr ⟨x, hx, hmem⟩) (fun y hy => ?_) hrank
  obtain ⟨z, hz, hy⟩ := List.mem_flatMap.mp hy
  have hy : y ∈ accessRecs s z.va ea z.width .store := hy
  rw [hr z hz] at hy
  exact .inl (List.mem_singleton.mp hy)

/-- SB, SH and SW sent to a misaligned place take the Mapper's address error. -/
theorem IsStore.takes_misplaced {w : Width} (h : IsStore i base rt off fun _ a r => [{ va := a, width := w, value := r }])
    (hn : noInterrupt s) (ha : aligned ea w = true) (hr : reaches s ea .store pa false) (hp : aligned pa w = false) :
    traps i s p { kind := .addrErr, mode := .store, badVAddr := ea } := by
  refine h.takes_mapperError hea rfl hn (storeRecs_single ha hr) ?_
  rw [storeTarget_single hr]
  simp [storeErrors, mapperError_misaligned hp]

end

/-- The exceptions of `i`, which reports `ea`, by what turns its access at `va` away. -/
def TurnedAway (i : Instr) (s : State) (p va ea : Word) (w : Width) (mode : AccessMode) : Prop :=
  (∀ refill, Walked va → translate s.cfg va mode = .tlbFault refill →
    traps i s p { kind := .tlb, mode := mode, badVAddr := ea, refill }) ∧
  (Walked va → translate s.cfg va mode = .modFault → traps i s p { kind := .mod, mode := .store, badVAddr := ea }) ∧
  (∀ pa, (segmentMap s va ea mode).pa = some pa → mapped s.cfg pa = false → traps i s p { kind := .dbe, mode := mode }) ∧
  (∀ pa, noInterrupt s → reaches s va mode pa false → aligned pa w = false →
    traps i s p { kind := .addrErr, mode := mode, badVAddr := ea })

section
variable {i : Instr} {base rt : Reg} {off : BitVec 16} {s : State} {p ea : Word}
  (hea : ea = readGpr s base + off.signExtend 32)
include hea

theorem IsLoad.turnedAway {place : Word → Word} {w : Width} {extend : Endian → Word → Word → Word → Word}
    (h : IsLoad i base rt off place w extend) (hu : s.userMode = false ∨ (place ea).toNat < 0x80000000)
    (ha : aligned (place ea) w = true) : TurnedAway i s p (place ea) ea w .load :=
  ⟨fun _ hw ht => h.takes_only hea (accessRecs_tlb hu ha hw ht) (by decide : 60 < 90),
    fun hw ht => h.takes_only hea (accessRecs_mod hu ha hw ht) (by decide : 70 < 90),
    fun _ hpa hm => h.takes_only hea (accessRecs_dbe hu ha nofun hpa hm) (by decide : 80 < 90),
    fun _ hn hr hpa => h.takes_mapperError hea hn ha hr hpa⟩

theorem IsStore.turnedAway {w : Width} (h : IsStore i base rt off fun _ a r => [{ va := a, width := w, value := r }])
    (hu : s.userMode = false ∨ ea.toNat < 0x80000000) (ha : aligned ea w = true) : TurnedAway i s p ea ea w .store := by
  have one {r} (hr : accessRecs s ea ea w .store = [r]) (hrank : r.rank < 90) : traps i s p r :=
    h.takes_only hea (List.cons_ne_nil _ _) (fun x hx => by rw [List.mem_singleton.mp hx]; exact hr) hrank
  exact ⟨fun _ hw ht => one (accessRecs_tlb hu ha hw ht) (by decide : 60 < 90),
    fun hw ht => one (accessRecs_mod hu ha hw ht) (by decide : 70 < 90),
    fun _ hpa hm => one (accessRecs_dbe hu ha nofun hpa hm) (by decide : 80 < 90),
    fun _ hn hr hpa => h.takes_misplaced hea hn ha hr hpa⟩

/-- SWL and SWR, every byte of whose word has the one record `r`. -/
theorem IsMerge.takes_only {bytes : Endian → Nat → List (Nat × Nat)} (h : IsMerge i base rt off bytes) {r : ExcRecord}
    (hr : ∀ k < 4, accessRecs s (alignedWord ea + BitVec.ofNat 32 k) ea .byte .store = [r]) (hrank : r.rank < 90) :
    traps i s p r := by
  refine h.toIsStore.takes_only hea (fun hnil => h.nonempty _ _ (List.map_eq_nil_iff.mp hnil)) (fun x hx => ?_) hrank
  obtain ⟨y, hy, rfl⟩ := List.mem_map.mp hx
  exact hr _ (h.offsets _ _ y hy)

end

/-- CACHE that Translate turns away. -/
theorem cache_tlb {base : Reg} {op : Nat} {off : BitVec 16} {s : State} {p ea : Word} {refill : Bool}
    (hea : ea = readGpr s base + off.signExtend 32) (hc : copAllowed s 0#2 = true)
    (hu : s.userMode = false ∨ ea.toNat < 0x80000000) (hw : Walked ea) (ht : translate s.cfg ea .load = .tlbFault refill) :
    traps (.cache base op off) s p { kind := .tlb, mode := .load, badVAddr := ea, refill } := by
  have hrecs : (addressTranslateUnchecked s ea .load).recs = [{ kind := .tlb, mode := .load, badVAddr := ea, refill }] := by
    rw [addressTranslateUnchecked, userCheck_allowed hu, segmentMap_walked hw, ht]
    rfl
  refine cache_traps hea hc ?_ ?_ (by decide : 60 < 90) <;> rw [hrecs]
  · exact List.mem_singleton_self _
  · exact fun x hx => .inl (List.mem_singleton.mp hx)

/-- The bytes of a word lie in one segment. -/
theorem Walked.byte {ea : Word} {k : Nat} (hk : k < 4) (hw : Walked (alignedWord ea)) :
    Walked (alignedWord ea + BitVec.ofNat 32 k) := by
  have hmod := (alignedWord_toNat ea).1
  rw [Walked, toNat_alignedWord_add ea hk]
  rcases hw with hw | hw <;> omega

/-- Settles O18: an access the mode allows, at an aligned address, has one record at most. -/
theorem translationTraps : Obligations.TranslationTraps := by
  intro s p base rt op off ea walked a hu
  have hin {k : Nat} (hk : k < 4) : s.userMode = false ∨ (alignedWord ea + BitVec.ofNat 32 k).toNat < 0x80000000 :=
    hu.imp_right fun h => Nat.lt_of_not_le fun hle => absurd ((user_alignedWord hk).mp hle) (Nat.not_le_of_lt h)
  have hword : s.userMode = false ∨ (alignedWord ea).toNat < 0x80000000 := by
    have := hin (show 0 < 4 by decide)
    rwa [BitVec.add_zero] at this
  refine ⟨?_, fun hc refill hw ht => cache_tlb rfl hc hu hw ht, ?_⟩
  · simp only [List.forall_mem_cons]
    exact ⟨(isLoad_lb _ _ _).turnedAway rfl hu, (isLoad_lbu _ _ _).turnedAway rfl hu, (isLoad_lh _ _ _).turnedAway rfl hu,
      (isLoad_lhu _ _ _).turnedAway rfl hu, (isLoad_lw _ _ _).turnedAway rfl hu, (isLoad_lwl _ _ _).turnedAway rfl hword,
      (isLoad_lwr _ _ _).turnedAway rfl hword, (isStore_sb _ _ _).turnedAway rfl hu, (isStore_sh _ _ _).turnedAway rfl hu,
      (isStore_sw _ _ _).turnedAway rfl hu, nofun⟩
  · have merge {i bytes} (h : IsMerge i base rt off bytes) :
        (∀ refill, walked a → (∀ k < 4, translate s.cfg (a + BitVec.ofNat 32 k) .store = .tlbFault refill) →
          traps i s p { kind := .tlb, mode := .store, badVAddr := ea, refill }) ∧
        (walked a → (∀ k < 4, translate s.cfg (a + BitVec.ofNat 32 k) .store = .modFault) →
          traps i s p { kind := .mod, mode := .store, badVAddr := ea }) ∧
        ((∀ k < 4, ∃ pa, (segmentMap s (a + BitVec.ofNat 32 k) ea .store).pa = some pa ∧ mapped s.cfg pa = false) →
          traps i s p { kind := .dbe, mode := .store }) := by
      refine ⟨fun _ hw ht => ?_, fun hw ht => ?_, fun hpa => ?_⟩
      · exact h.takes_only rfl (fun k hk => accessRecs_tlb (hin hk) rfl (Walked.byte hk hw) (ht k hk)) (by decide : 60 < 90)
      · exact h.takes_only rfl (fun k hk => accessRecs_mod (hin hk) rfl (Walked.byte hk hw) (ht k hk)) (by decide : 70 < 90)
      · refine h.takes_only rfl (fun k hk => ?_) (by decide : 80 < 90)
        obtain ⟨pa, hp, hm⟩ := hpa k hk
        exact accessRecs_dbe (hin hk) rfl nofun hp hm
    simp only [List.forall_mem_cons]
    exact ⟨merge (isMerge_swl _ _ _), merge (isMerge_swr _ _ _), nofun⟩

end Sys2Proof.Machine
end

section
/-! O21, O23. Uncached loads and stores that reach a device, and the byte stores of SWL and SWR (spec/20_memory.md R116,
R121, R123, spec/42_load_store.md R388, R389, R394 to R396). -/

namespace Sys2Proof.Machine

/-! ### Bytes and halfwords of a word -/

theorem truncate_extract (w : Width) (v : Word) : w.truncate v = (v.extractLsb' 0 (8 * w.bytes)).zeroExtend 32 := by
  refine BitVec.eq_of_getLsbD_eq fun i hi => ?_
  rw [getLsbD_truncate, BitVec.getLsbD_setWidth, BitVec.getLsbD_extractLsb', Nat.zero_add, decide_eq_true hi, Bool.true_and]

theorem truncate_byte (v : Word) : Width.byte.truncate v = (v.extractLsb' 0 8).zeroExtend 32 := truncate_extract .byte v

theorem truncate_half (v : Word) : Width.half.truncate v = (v.extractLsb' 0 16).zeroExtend 32 := truncate_extract .half v

theorem extract_zeroExtend {n : Nat} (hn : n ≤ 32) (b : BitVec n) : (b.zeroExtend 32).extractLsb' 0 n = b := by
  refine BitVec.eq_of_getLsbD_eq fun i hi => ?_
  rw [BitVec.getLsbD_extractLsb', BitVec.getLsbD_setWidth, Nat.zero_add]
  simp [hi, Nat.lt_of_lt_of_le hi hn]

theorem signByte_truncate (v : Word) : signByte (Width.byte.truncate v) = (v.extractLsb' 0 8).signExtend 32 := by
  rw [signByte, truncate_byte, extract_zeroExtend (by decide)]

theorem signHalf_truncate (v : Word) : signHalf (Width.half.truncate v) = (v.extractLsb' 0 16).signExtend 32 := by
  rw [signHalf, truncate_half, extract_zeroExtend (by decide)]

theorem truncate_zeroExtend (b : Byte) : Width.byte.truncate (b.zeroExtend 32) = b.zeroExtend 32 := by
  rw [truncate_byte, extract_zeroExtend (by decide)]

/-- A byte stored is the byte at its address. -/
theorem bytesOfValue_byte (e : Endian) (v : Word) : bytesOfValue e Width.byte.bytes v = [byteOf v 0] := by cases e <;> rfl

/-! ### A device -/

section
variable {i : Instr} {base rt : Reg} {off : BitVec 16} {s : State} {p ea pa : Word} {w : Width}
  (hea : ea = readGpr s base + off.signExtend 32) (hn : noInterrupt s) (hd : isDevice s.cfg pa = true)
  (hp : aligned pa w = true)
include hea hn hd hp

theorem IsLoad.device {place : Word → Word} {extend : Endian → Word → Word → Word → Word}
    (h : IsLoad i base rt off place w extend) (ha : aligned (place ea) w = true) (hr : reaches s (place ea) .load pa false) :
    ∃ t, runsTo i s p t ∧ gets t rt (extend s.cfg.endian ea (readGpr s rt) (w.truncate (Config.freeWord s.draws))) ∧
      sameGprBut rt s t ∧ t.mem = s.mem ∧ t.dcache = s.dcache ∧
      t.devLog = s.devLog ++ [{ client := .dcache, addr := pa, bytes := w.bytes, data := none }] ∧ t.draws = s.draws + 1 ∧
      onlyData s t p :=
  h.completes hea hn ha hr fun x => by rw [readAt_uncached hp, mapperFetch_device (s := atMem s x) hd]; rfl

theorem IsStore.device (h : IsStore i base rt off fun _ a r => [{ va := a, width := w, value := r }])
    (ha : aligned ea w = true) (hr : reaches s ea .store pa false) :
    ∃ t, runsTo i s p t ∧ sameGpr s t ∧ t.mem = s.mem ∧ t.dcache = s.dcache ∧
      t.devLog = s.devLog ++ [{ client := .dcache, addr := pa, bytes := w.bytes, data := some (w.truncate (readGpr s rt)) }] ∧
      t.draws = s.draws ∧ onlyData s t p := by
  refine h.completes hea rfl hn (storeRecs_single ha hr) (storeErrors_single hr (.inr hp)) ?_ ?_ <;> rw [storeTarget_single hr]
  · rfl
  · exact mapperStore_device hd w (readGpr s rt) .dcache

end

/-! ### Byte stores around DCACHE -/

/-- An uncached byte store. -/
def byteTarget (c : Word × Byte) : StoreTarget :=
  { pa := c.1, cacheable := false, width := .byte, value := c.2.zeroExtend 32 }

/-- What the environment sees of a byte stored to a device. -/
def byteAccess (c : Word × Byte) : DeviceAccess :=
  { client := .dcache, addr := c.1, bytes := 1, data := some (c.2.zeroExtend 32) }

theorem storesReady_bytes (s : State) (cells : List (Word × Byte)) : storesReady s (cells.map byteTarget) = (true, s) := by
  induction cells with
  | nil => rfl
  | cons c cells ih => exact ih

/-- Byte stores go, in order, to memory or to a device as each address says. -/
theorem storeAll_bytes (cells : List (Word × Byte)) : ∀ s : State, ∃ m,
    storeAll s (cells.map byteTarget) =
      s.withData m s.dcache (s.devLog ++ (cells.filter fun c => isDevice s.cfg c.1).map byteAccess) s.draws ∧
    ∀ a, Memory.read m a = afterStores (cells.filter fun c => !isDevice s.cfg c.1) a (Memory.read s.mem a) := by
  induction cells with
  | nil => exact fun s => ⟨s.mem, by simp [storeAll, State.withData], fun a => rfl⟩
  | cons c cells ih =>
    intro s
    rw [List.map_cons, storeAll, show storeAt s (byteTarget c) = mapperStore s c.1 .byte (c.2.zeroExtend 32) .dcache from rfl]
    cases hd : isDevice s.cfg c.1
    · rw [mapperStore_memory hd, bytesOfValue_byte]
      obtain ⟨m, hall, hread⟩ := ih { s with mem := s.mem.writeBytes c.1 [byteOf (c.2.zeroExtend 32) 0] }
      refine ⟨m, hall.trans ?_, fun a => (hread a).trans ?_⟩
      · simp [hd]
        rfl
      · have hb : byteOf (c.2.zeroExtend 32) 0 = c.2 := extract_zeroExtend (by decide) c.2
        simp [hd, afterStores, Memory.writeBytes, Memory.read_write, hb]
    · rw [mapperStore_device hd, truncate_zeroExtend]
      obtain ⟨m, hall, hread⟩ := ih { s with devLog := s.devLog ++ [byteAccess c] }
      refine ⟨m, hall.trans ?_, fun a => (hread a).trans ?_⟩
      · simp [hd]
        rfl
      · simp [hd]

/-- The bytes of SWL and SWR with the places that their addresses are translated to. -/
def mergeCells (at_ : Nat → Word) (r : Word) (bytes : List (Nat × Nat)) : List (Word × Byte) :=
  bytes.map fun x => (at_ x.1, byteOf r x.2)

section
variable {s : State} {ea r : Word} {at_ : Nat → Word} {bytes : List (Nat × Nat)} (hb : ∀ x ∈ bytes, x.1 < 4)
include hb

/-- SWL and SWR that pass their checks have no records. -/
theorem storeRecs_merge {c : Bool} (hr : ∀ k < 4, reaches s (alignedWord ea + BitVec.ofNat 32 k) .store (at_ k) c) :
    storeRecs s ea (bytes.map (mergeItem (alignedWord ea) r)) = [] := by
  refine List.flatMap_eq_nil_iff.mpr fun x hx => ?_
  obtain ⟨y, hy, rfl⟩ := List.mem_map.mp hx
  rw [alignCheck_aligned rfl, show (mergeItem (alignedWord ea) r y).va = alignedWord ea + BitVec.ofNat 32 y.1 from rfl,
    reaches_bad (hr _ (hb y hy))]
  rfl

/-- Their stores go where their bytes' own addresses are translated to (log entry 13). -/
theorem storeTarget_merge {c : Bool} (hr : ∀ k < 4, reaches s (alignedWord ea + BitVec.ofNat 32 k) .store (at_ k) c) :
    (bytes.map (mergeItem (alignedWord ea) r)).map (storeTarget s ea) =
      bytes.map fun x => { pa := at_ x.1, cacheable := c, width := .byte, value := (byteOf r x.2).zeroExtend 32 } := by
  rw [List.map_map]
  refine List.map_congr_left fun y hy => ?_
  simp only [Function.comp, storeTarget, mergeItem, reaches_bad (hr _ (hb y hy)), Option.getD_some]

end

/-- SWL and SWR whose bytes are all uncached. -/
theorem IsMerge.uncached {i : Instr} {base rt : Reg} {off : BitVec 16} {bytes : Endian → Nat → List (Nat × Nat)} {s : State}
    {p ea : Word} {at_ : Nat → Word} (h : IsMerge i base rt off bytes) (hea : ea = readGpr s base + off.signExtend 32)
    (hn : noInterrupt s) (hr : ∀ k < 4, reaches s (alignedWord ea + BitVec.ofNat 32 k) .store (at_ k) false) :
    let cells := mergeCells at_ (readGpr s rt) (bytes s.cfg.endian (ea.toNat % 4))
    ∃ t, runsTo i s p t ∧ stored s t (cells.filter fun c => !isDevice s.cfg c.1) ∧
      t.devLog = s.devLog ++ (cells.filter fun c => isDevice s.cfg c.1).map byteAccess ∧ sameGpr s t ∧
      t.dcache = s.dcache ∧ t.draws = s.draws ∧ onlyData s t p := by
  intro cells
  have hb := h.offsets s.cfg.endian (ea.toNat % 4)
  have htargets : ((bytes s.cfg.endian (ea.toNat % 4)).map (mergeItem (alignedWord ea) (readGpr s rt))).map (storeTarget s ea) =
      cells.map byteTarget := by
    rw [storeTarget_merge hb hr]
    simp [cells, mergeCells, byteTarget]
  obtain ⟨m, hall, hread⟩ := storeAll_bytes cells s
  obtain ⟨t, hrun, hgpr, hmem, hdcache, hlog, hdraws, honly⟩ := h.completes (p := p) hea rfl hn (storeRecs_merge hb hr)
    (by rw [htargets]; exact storeErrors_eq_nil fun t ht => by obtain ⟨c, -, rfl⟩ := List.mem_map.mp ht; exact .inr rfl)
    (by rw [htargets]; exact storesReady_bytes s cells) (by rw [htargets]; exact hall)
  exact ⟨t, hrun, fun a => by rw [hmem, hread], hlog, hgpr, hdcache, hdraws, honly⟩

/-- Settles O23: no byte of the word leads to a device, so that every store of the table is one to memory. -/
theorem uncachedMergeStores : Obligations.UncachedMergeStores := by
  intro s p base rt off at_ hn ea a r hr
  have row {i bytes} (h : IsMerge i base rt off bytes) (e : Endian) (k : Nat) (he : s.cfg.endian = e) (hk : ea.toNat % 4 = k) :
      ∃ t, runsTo i s p t ∧ stored s t (mergeCells at_ (readGpr s rt) (bytes e k)) ∧ sameGpr s t ∧ t.dcache = s.dcache ∧
        t.devLog = s.devLog ∧ t.draws = s.draws ∧ onlyData s t p := by
    subst he hk
    obtain ⟨t, hrun, hmem, hlog, hgpr, hdcache, hdraws, honly⟩ := h.uncached (p := p) rfl hn fun k hk => (hr k hk).1
    have hmemory : ∀ c ∈ mergeCells at_ (readGpr s rt) (bytes s.cfg.endian (ea.toNat % 4)), isDevice s.cfg c.1 = false := by
      intro c hc
      obtain ⟨x, hx, rfl⟩ := List.mem_map.mp hc
      exact (hr _ (h.offsets _ _ x hx)).2
    rw [List.filter_eq_self.mpr fun c hc => by simp [hmemory c hc]] at hmem
    rw [List.filter_eq_nil_iff.mpr fun c hc => by simp [hmemory c hc]] at hlog
    exact ⟨t, hrun, hmem, hgpr, hdcache, hlog.trans (List.append_nil _), hdraws, honly⟩
  have swl := row (isMerge_swl base rt off)
  have swr := row (isMerge_swr base rt off)
  simp only [List.forall_mem_cons]
  exact ⟨swl _ _, swl _ _, swl _ _, swl _ _, swl _ _, swl _ _, swl _ _, swl _ _, swr _ _, swr _ _, swr _ _, swr _ _, swr _ _,
    swr _ _, swr _ _, swr _ _, nofun⟩

theorem mergeItem_offset (a r : Word) (x : Nat × Nat) : (mergeItem a r x).va - a = BitVec.ofNat 32 x.1 := by
  rw [mergeItem, BitVec.add_comm, BitVec.add_sub_cancel]

/-- SWL and SWR, the items of the table in order. -/
theorem IsMerge.items {i : Instr} {base rt : Reg} {off : BitVec 16} {bytes : Endian → Nat → List (Nat × Nat)}
    (h : IsMerge i base rt off bytes) (e : Endian) (ea r : Word) (at_ : Nat → Word) :
    (((bytes e (ea.toNat % 4)).map (mergeItem (alignedWord ea) r)).map fun x => (at_ (x.va - alignedWord ea).toNat, x.value)) =
      (mergeCells at_ r (bytes e (ea.toNat % 4))).map fun c => (c.1, c.2.zeroExtend 32) := by
  rw [mergeCells, List.map_map, List.map_map]
  refine List.map_congr_left fun x hx => ?_
  have hk : ((mergeItem (alignedWord ea) r x).va - alignedWord ea).toNat = x.1 := by
    rw [mergeItem_offset, BitVec.toNat_ofNat]
    exact Nat.mod_eq_of_lt (Nat.lt_trans (h.offsets _ _ x hx) (by decide))
  exact congrArg (fun k => (at_ k, _)) hk

/-- Settles O21: a load or store is one Mapper call, the byte stores of SWL and SWR one each, split by where they lead. -/
theorem deviceAccesses : Obligations.DeviceAccesses := by
  intro s p base rt off pa at_ hn ea a drawn
  refine ⟨fun hd => ⟨?_, fun hr => ?_⟩, fun hr => ?_⟩
  · have load {i place w extend} (h : IsLoad i base rt off place w extend) (v : Word)
        (hv : extend s.cfg.endian ea (readGpr s rt) (w.truncate drawn) = v) (h1 : reaches s (place ea) .load pa false)
        (h2 : aligned (place ea) w = true) (h3 : aligned pa w = true) :
        ∃ t, runsTo i s p t ∧ gets t rt v ∧ sameGprBut rt s t ∧ t.mem = s.mem ∧ t.dcache = s.dcache ∧
          t.devLog = s.devLog ++ [{ client := .dcache, addr := pa, bytes := w.bytes, data := none }] ∧ t.draws = s.draws + 1 ∧
          onlyData s t p := hv ▸ h.device rfl hn hd h3 h2 h1
    simp only [List.forall_mem_cons]
    exact ⟨load (isLoad_lb _ _ _) _ (signByte_truncate drawn), load (isLoad_lbu _ _ _) _ (truncate_byte drawn),
      load (isLoad_lh _ _ _) _ (signHalf_truncate drawn), load (isLoad_lhu _ _ _) _ (truncate_half drawn),
      load (isLoad_lw _ _ _) _ rfl, load (isLoad_lwl _ _ _) _ (by rw [byteInWord_eq]; rfl),
      load (isLoad_lwr _ _ _) _ (by rw [byteInWord_eq]; rfl), nofun⟩
  · have store {i w} (h : IsStore i base rt off fun _ a r => [{ va := a, width := w, value := r }]) (v : Word)
        (hv : w.truncate (readGpr s rt) = v) (h2 : aligned ea w = true) (h3 : aligned pa w = true) :
        ∃ t, runsTo i s p t ∧ sameGpr s t ∧ t.mem = s.mem ∧ t.dcache = s.dcache ∧
          t.devLog = s.devLog ++ [{ client := .dcache, addr := pa, bytes := w.bytes, data := some v }] ∧ t.draws = s.draws ∧
          onlyData s t p := hv ▸ h.device rfl hn hd h3 h2 hr
    simp only [List.forall_mem_cons]
    exact ⟨store (isStore_sb _ _ _) _ (truncate_byte _), store (isStore_sh _ _ _) _ (truncate_half _),
      store (isStore_sw _ _ _) _ rfl, nofun⟩
  · have merge {i bytes} (h : IsMerge i base rt off bytes) (items : List StoreItem)
        (hi : items = (bytes s.cfg.endian (ea.toNat % 4)).map (mergeItem (alignedWord ea) (readGpr s rt))) :
        let cells := items.map fun x => (at_ (x.va - a).toNat, x.value)
        ∃ t, runsTo i s p t ∧
          stored s t ((cells.filter fun x => !isDevice s.cfg x.1).map fun x => (x.1, x.2.extractLsb' 0 8)) ∧
          t.devLog = s.devLog ++ (cells.filter fun x => isDevice s.cfg x.1).map (fun x =>
            { client := .dcache, addr := x.1, bytes := 1, data := some x.2 }) ∧
          sameGpr s t ∧ t.dcache = s.dcache ∧ t.draws = s.draws ∧ onlyData s t p := by
      intro cells
      obtain ⟨t, hrun, hmem, hlog, hrest⟩ := h.uncached (p := p) (ea := ea) rfl hn hr
      have hc : cells = _ := (congrArg _ hi).trans (h.items s.cfg.endian ea (readGpr s rt) at_)
      refine ⟨t, hrun, ?_, ?_, hrest⟩
      · rw [hc, List.filter_map, List.map_map]
        simpa [Function.comp_def, extract_zeroExtend] using hmem
      · rw [hc, List.filter_map, List.map_map]
        exact hlog
    simp only [List.forall_mem_cons]
    exact ⟨merge (isMerge_swl _ _ _) _ (swlItems_eq _ _ _), merge (isMerge_swr _ _ _) _ (swrItems_eq _ _ _), nofun⟩

end Sys2Proof.Machine
end

section
/-! O24, O25, O26. Cached loads and stores: those that DCACHE has the line of, and those that it makes wait
(spec/20_memory.md R120, R121, R123, R142 to R146). -/

namespace Sys2Proof.Machine

/-! ### DCACHE, hit and not ready -/

/-- DCACHE after a hit of `pa` in `way` that leaves the line `l` (R145, R146). -/
def State.hitDcache (s : State) (pa : Word) (way : Nat) (l : CacheLine) : Cache :=
  { s.dcache.setLine s.cfg.dcacheGeom way (s.cfg.dcacheGeom.index pa) { l with lastAccess := s.cycle } with
    hits := s.dcache.hits + 1 }

/-- The line of `pa` in `way`. -/
def State.dcacheLine (s : State) (pa : Word) (way : Nat) : CacheLine :=
  s.dcache.line s.cfg.dcacheGeom way (s.cfg.dcacheGeom.index pa)

/-- Its word that `pa` is in. -/
def State.dcacheWord (s : State) (pa : Word) (way : Nat) : Word :=
  (s.dcacheLine pa way).data.getD (s.cfg.dcacheGeom.wordIndex pa) 0#32

/-- A cached read that hits. -/
theorem readAt_hit {s : State} {pa : Word} {way : Nat} (hi : s.dcache.ctrl = .idle) (hl : lookup s .dcache pa = some way)
    (w : Width) (bad : Word) (x : Snapshot) :
    readAt (atMem s x) pa true w bad = .done (laneOrDraw s w pa (s.dcacheWord pa way))
      (atMem (s.withData s.mem (s.hitDcache pa way (s.dcacheLine pa way)) s.devLog (s.draws + laneDraws w pa)) x) := by
  simp only [readAt, if_true, cacheReady_hit (s := atMem s x) (c := .dcache) hi hl,
    cacheRead_hit ((lookup_atMem s x .dcache pa).trans hl)]
  rfl

/-- A write to a line that DCACHE holds (R146). -/
theorem cacheWrite_hit {s : State} {pa : Word} {way : Nat} (hl : lookup s .dcache pa = some way) (w : Width) (v : Word) :
    cacheWrite s .dcache pa w v =
      s.withData s.mem
        (s.hitDcache pa way { s.dcacheLine pa way with
          data := (s.dcacheLine pa way).data.set (s.cfg.dcacheGeom.wordIndex pa) (mergeOrDraw s w pa (s.dcacheWord pa way) v)
          dirty := true })
        s.devLog (s.draws + laneDraws w pa) := by
  simp only [cacheWrite, hl]
  rfl

/-- A byte's write into a line leaves all but DCACHE. -/
theorem cacheWrite_byte (s : State) (pa v : Word) :
    cacheWrite s .dcache pa .byte v = { s with dcache := (cacheWrite s .dcache pa .byte v).dcache } := by
  cases hl : lookup s .dcache pa with
  | none => simp only [cacheWrite, hl]
  | some way => rw [cacheWrite_hit hl]; rfl

theorem readAt_stall {s : State} {pa : Word} {k : Cache} {w : Width} {bad : Word}
    (h : cacheReady s .dcache pa .load = (false, { s with dcache := k })) (x : Snapshot) :
    readAt (atMem s x) pa true w bad = .stall (atMem { s with dcache := k } x) := by
  simp only [readAt, if_true, cacheReady_atMem, h]

/-! ### The stores' places -/

/-- A store waits for its first line. -/
theorem storesReady_not {s : State} {t : StoreTarget} {k : Cache} (hc : t.cacheable = true)
    (h : cacheReady s .dcache t.pa .store = (false, { s with dcache := k })) (ts : List StoreTarget) :
    storesReady s (t :: ts) = (false, { s with dcache := k }) := by
  simp only [storesReady, hc, if_true, h]

/-- Stores to lines that DCACHE holds need not wait. -/
theorem storesReady_hits {s : State} (hi : s.dcache.ctrl = .idle) {ts : List StoreTarget}
    (h : ∀ t ∈ ts, (lookup s .dcache t.pa).isSome = true) : storesReady s ts = (true, s) := by
  induction ts with
  | nil => rfl
  | cons t ts ih =>
    obtain ⟨way, hl⟩ := Option.isSome_iff_exists.mp (h t List.mem_cons_self)
    simp [storesReady, cacheReady_hit (c := .dcache) hi hl, ih fun u hu => h u (List.mem_cons_of_mem _ hu)]

/-- A cached byte store. -/
def cachedByte (c : Word × Word) : StoreTarget := { pa := c.1, cacheable := true, width := .byte, value := c.2 }

theorem storeErrors_cachedBytes (bad : Word) (cells : List (Word × Word)) : storeErrors bad (cells.map cachedByte) = [] := by
  refine storeErrors_eq_nil fun t ht => ?_
  obtain ⟨c, -, rfl⟩ := List.mem_map.mp ht
  exact .inl rfl

/-- Cached byte stores change DCACHE only, one write after the other. -/
theorem storeAll_cachedBytes (cells : List (Word × Word)) : ∀ s : State,
    storeAll s (cells.map cachedByte) =
      { s with dcache := (cells.foldl (fun u c => cacheWrite u .dcache c.1 .byte c.2) s).dcache } := by
  induction cells with
  | nil => exact fun s => rfl
  | cons c cells ih =>
    intro s
    rw [List.map_cons, storeAll, List.foldl_cons, show storeAt s (cachedByte c) = cacheWrite s .dcache c.1 .byte c.2 from rfl, ih]
    rw [cacheWrite_byte]

/-- SWL and SWR to a cached word: the byte writes of their table. -/
theorem storeTarget_cachedMerge {s : State} {ea pa r : Word} {bytes : List (Nat × Nat)} (hb : ∀ x ∈ bytes, x.1 < 4)
    (hr : ∀ k < 4, reaches s (alignedWord ea + BitVec.ofNat 32 k) .store (pa + BitVec.ofNat 32 k) true) :
    (bytes.map (mergeItem (alignedWord ea) r)).map (storeTarget s ea) =
      ((bytes.map (mergeItem (alignedWord ea) r)).map fun x => (pa + (x.va - alignedWord ea), x.value)).map cachedByte := by
  rw [storeTarget_merge (at_ := fun k => pa + BitVec.ofNat 32 k) hb hr, List.map_map, List.map_map]
  exact List.map_congr_left fun x _ => by simp only [Function.comp, mergeItem_offset]; rfl

/-! ### Loads and stores that hit -/

/-- Settles O24: the checks pass, DCACHE is ready and answers from its line. -/
theorem cachedLoads : Obligations.CachedLoads := by
  intro s p base rt off pa way hn ea g l lane hi hl
  have load {i place w extend} (h : IsLoad i base rt off place w extend) (v : Word)
      (hv : extend s.cfg.endian ea (readGpr s rt) (lane w) = v) (ha : aligned (place ea) w = true)
      (hr : reaches s (place ea) .load pa true) :
      ∃ t, runsTo i s p t ∧ gets t rt v ∧ sameGprBut rt s t ∧
        t.dcache = { s.dcache.setLine g way (g.index pa) { l with lastAccess := s.cycle } with hits := s.dcache.hits + 1 } ∧
        t.mem = s.mem ∧ t.devLog = s.devLog ∧ t.draws = s.draws + (if aligned pa w then 0 else 1) ∧ onlyData s t p := by
    subst hv
    obtain ⟨t, hrun, hgets, hbut, hmem, hdcache, hrest⟩ := h.completes (p := p) rfl hn ha hr (readAt_hit hi hl w ea)
    exact ⟨t, hrun, hgets, hbut, hdcache, hmem, hrest⟩
  simp only [List.forall_mem_cons]
  exact ⟨load (isLoad_lb _ _ _) _ rfl, load (isLoad_lbu _ _ _) _ rfl, load (isLoad_lh _ _ _) _ rfl,
    load (isLoad_lhu _ _ _) _ rfl, load (isLoad_lw _ _ _) _ rfl, load (isLoad_lwl _ _ _) _ (by rw [byteInWord_eq]),
    load (isLoad_lwr _ _ _) _ (by rw [byteInWord_eq]), nofun⟩

/-- Settles O25: the places are ready, and their writes into the lines are made in order. -/
theorem cachedStores : Obligations.CachedStores := by
  intro s p base rt off pa way hn ea a g l j rest hi
  refine ⟨fun hl hr => ?_, fun hr => ?_⟩
  · have store {i w} (h : IsStore i base rt off fun _ a r => [{ va := a, width := w, value := r }])
        (ha : aligned ea w = true) :
        ∃ t, runsTo i s p t ∧ rest t (if aligned pa w then 0 else 1) ∧
          t.dcache = { s.dcache.setLine g way (g.index pa)
              { l with data := l.data.set j (if aligned pa w then
                         laneWrite s.cfg.endian w pa (l.data.getD j 0#32) (readGpr s rt) else Config.freeWord s.draws),
                       dirty := true, lastAccess := s.cycle } with
            hits := s.dcache.hits + 1 } := by
      obtain ⟨t, hrun, hgpr, hmem, hdcache, hlog, hdraws, honly⟩ := h.completes (p := p) (ea := ea) rfl rfl hn
        (storeRecs_single ha hr)
        (storeErrors_single hr (.inl rfl))
        (by rw [storeTarget_single hr]; exact storesReady_hits hi fun t ht => by
              rw [List.mem_singleton.mp ht]; exact Option.isSome_of_eq_some hl)
        (by rw [storeTarget_single hr]; exact cacheWrite_hit hl w (readGpr s rt))
      exact ⟨t, hrun, ⟨hgpr, hmem, hlog, hdraws, honly⟩, hdcache⟩
    simp only [List.forall_mem_cons]
    exact ⟨store (isStore_sb _ _ _), store (isStore_sh _ _ _), store (isStore_sw _ _ _), nofun⟩
  · have merge {i bytes} (h : IsMerge i base rt off bytes) (items : List StoreItem)
        (hitems : items = (bytes s.cfg.endian (ea.toNat % 4)).map (mergeItem (alignedWord ea) (readGpr s rt))) :
        ∃ t, runsTo i s p t ∧ rest t 0 ∧
          t.dcache = (items.foldl (fun u x => cacheWrite u .dcache (pa + (x.va - a)) .byte x.value) s).dcache := by
      have hb := h.offsets s.cfg.endian (ea.toNat % 4)
      have htargets := storeTarget_cachedMerge (r := readGpr s rt) hb fun k hk => (hr k hk).1
      obtain ⟨t, hrun, hgpr, hmem, hdcache, hlog, hdraws, honly⟩ := h.completes (p := p) (ea := ea) rfl rfl hn
        (storeRecs_merge hb fun k hk => (hr k hk).1)
        (by rw [htargets]; exact storeErrors_cachedBytes ea _)
        (by rw [storeTarget_merge (at_ := fun k => pa + BitVec.ofNat 32 k) hb fun k hk => (hr k hk).1]
            exact storesReady_hits hi fun t ht => by
              obtain ⟨x, hx, rfl⟩ := List.mem_map.mp ht
              exact (hr _ (hb x hx)).2)
        (by rw [htargets]; exact storeAll_cachedBytes _ s)
      rw [List.foldl_map, ← hitems] at hdcache
      exact ⟨t, hrun, ⟨hgpr, hmem, hlog, hdraws, honly⟩, hdcache⟩
    simp only [List.forall_mem_cons]
    exact ⟨merge (isMerge_swl _ _ _) _ (swlItems_eq _ _ _), merge (isMerge_swr _ _ _) _ (swrItems_eq _ _ _), nofun⟩

/-! ### DCACHE not ready -/

/-- Settles O26: the first place DCACHE cannot give stops the access, and no store is made before it. -/
theorem cacheMissStalls : Obligations.CacheMissStalls := by
  intro s p base rt off pa hn ea a waits
  have load {i place w extend} (h : IsLoad i base rt off place w extend) (ha : aligned (place ea) w = true)
      (hr : reaches s (place ea) .load pa true) (hm : s.dcache.ctrl ≠ .idle ∨ lookup s .dcache pa = none) : waits i pa .load := by
    obtain ⟨k, hready, hk⟩ := cacheReady_not (c := .dcache) hm .load
    obtain ⟨t, hrun, hstall, hicache, rfl⟩ := h.stalls (p := p) (ea := ea) rfl hn ha hr (fun x => readAt_stall hready x)
    exact ⟨t, hrun, hstall, hicache, hk⟩
  have store {i w} (h : IsStore i base rt off fun _ a r => [{ va := a, width := w, value := r }]) (ha : aligned ea w = true)
      (hr : reaches s ea .store pa true) (hm : s.dcache.ctrl ≠ .idle ∨ lookup s .dcache pa = none) : waits i pa .store := by
    obtain ⟨k, hready, hk⟩ := cacheReady_not (c := .dcache) hm .store
    obtain ⟨t, hrun, hstall, hicache, rfl⟩ := h.stalls (p := p) (ea := ea) rfl rfl hn (storeRecs_single ha hr)
      (storeErrors_single hr (.inl rfl))
      (by rw [storeTarget_single hr]; exact storesReady_not rfl hready [])
    exact ⟨t, hrun, hstall, hicache, hk⟩
  have merge {i bytes} (h : IsMerge i base rt off bytes) (items : List StoreItem)
      (hitems : items = (bytes s.cfg.endian (ea.toNat % 4)).map (mergeItem (alignedWord ea) (readGpr s rt))) (x : StoreItem)
      (hx : items.head? = some x) (hm : ∀ k < 4, reaches s (a + BitVec.ofNat 32 k) .store (pa + BitVec.ofNat 32 k) true ∧
        (s.dcache.ctrl ≠ .idle ∨ lookup s .dcache (pa + BitVec.ofNat 32 k) = none)) : waits i (pa + (x.va - a)) .store := by
    have hb := h.offsets s.cfg.endian (ea.toNat % 4)
    have htargets := storeTarget_cachedMerge (r := readGpr s rt) hb fun k hk => (hm k hk).1
    rw [← hitems] at htargets
    obtain ⟨rest, hcons⟩ : ∃ rest, items = x :: rest := List.head?_eq_some_iff.mp hx
    obtain ⟨y, hy, rfl⟩ := List.mem_map.mp (hitems ▸ hcons ▸ List.mem_cons_self)
    obtain ⟨k, hready, hk⟩ := cacheReady_not (c := .dcache) (hm _ (hb y hy)).2 .store
    rw [← mergeItem_offset a (readGpr s rt)] at hready hk
    obtain ⟨t, hrun, hstall, hicache, rfl⟩ := h.stalls (p := p) (ea := ea) (l := items) rfl hitems hn
      (hitems ▸ storeRecs_merge hb fun k hk => (hm k hk).1)
      (by rw [htargets]; exact storeErrors_cachedBytes ea _)
      (by rw [htargets, hcons]; exact storesReady_not rfl hready _)
    exact ⟨t, hrun, hstall, hicache, hk⟩
  simp only [List.forall_mem_cons]
  exact ⟨⟨load (isLoad_lb _ _ _), load (isLoad_lbu _ _ _), load (isLoad_lh _ _ _), load (isLoad_lhu _ _ _),
      load (isLoad_lw _ _ _), load (isLoad_lwl _ _ _), load (isLoad_lwr _ _ _), store (isStore_sb _ _ _),
      store (isStore_sh _ _ _), store (isStore_sw _ _ _), nofun⟩,
    merge (isMerge_swl _ _ _) _ (swlItems_eq _ _ _), merge (isMerge_swr _ _ _) _ (swrItems_eq _ _ _), nofun⟩

end Sys2Proof.Machine
end

section
/-! O27, O28. CACHE: operations that do nothing, hits, busy caches and the wait of an issued one (spec/20_memory.md R160 to
R164, spec/42_load_store.md R397, R398). -/

namespace Sys2Proof.Machine

/-! ### The operations -/

/-- The four values that do something. -/
theorem cacheAction_target {op : Nat} {c : CacheId} (h : op = 0x10 ∧ c = .icache ∨ op ∈ [0x11, 0x15, 0x19] ∧ c = .dcache) :
    (cacheAction op).target = some c := by
  simp only [List.mem_cons, List.not_mem_nil, or_false] at h
  rcases h with ⟨rfl, rfl⟩ | ⟨rfl | rfl | rfl, rfl⟩ <;> rfl

/-- Every other value is a no-op. -/
theorem cacheAction_noOp {op : Nat} (h : op ∉ [0x10, 0x11, 0x15, 0x19]) : (cacheAction op).target = none := by
  simp only [List.mem_cons, List.not_mem_nil, or_false, not_or] at h
  obtain ⟨h10, h11, h15, h19⟩ := h
  simp [cacheAction, h10, h11, h15, h19, CacheAction.target]

/-- An operation on a line that its cache does not hold does nothing (R161 to R163). -/
theorem perform_miss {a : CacheAction} {s : State} {c : CacheId} {pa : Word} (ht : a.target = some c)
    (hl : lookup s c pa = none) : a.perform s pa = s := by
  cases a with
  | noOp => rfl
  | hitInvalidate d => cases ht; simp only [CacheAction.perform, opHitInvalidate, hl]
  | hitWriteback d => cases ht; simp only [CacheAction.perform, opHitWriteback, hl]
  | hitWbInvalidate d => cases ht; simp only [CacheAction.perform, opHitWbInvalidate, hl]

/-! ### CACHE in MEM -/

/-- CACHE not yet issued whose translation passes goes on to its operation. -/
theorem cacheWork_issues {op : Nat} {s : State} {pa : Word} {b : Bool} (hi : s.pipe.mem.memIssued = false)
    (he : s.pipe.mem.exc = [])
    (hr : addressTranslateUnchecked s s.pipe.mem.ea .load = { pa := some pa, cacheable := b, recs := [] }) :
    cacheWork op s = cacheIssue op pa s := by
  have hraise : s.raiseMem [] = s := by rw [State.raiseMem, Snapshot.raise, List.append_nil]; rfl
  simp [cacheWork, hi, hr, hraise, he]

theorem cacheIssue_noOp {op : Nat} (ht : (cacheAction op).target = none) (pa : Word) (s : State) :
    cacheIssue op pa s = .done s := by
  simp only [cacheIssue, ht]

section
variable {op : Nat} {c : CacheId} {s : State} {pa : Word} (ht : (cacheAction op).target = some c)
include ht

theorem cacheIssue_absent (hp : s.cfg.present c = false) : cacheIssue op pa s = .done s := by
  simp only [cacheIssue, ht, hp, if_true]

theorem cacheIssue_busy (hp : s.cfg.present c = true) (hi : (s.cache c).ctrl ≠ .idle) : cacheIssue op pa s = .stall s := by
  simp [cacheIssue, ht, hp, hi]

theorem cacheIssue_idle (x : Snapshot) {k : Cache} (hp : s.cfg.present c = true) (hi : (s.cache c).ctrl = .idle)
    (hk : (cacheAction op).perform s pa = s.setCache c k) :
    cacheIssue op pa (atMem s x) =
      if k.ctrl = .idle then .done (atMem (s.setCache c k) { x with memIssued := true })
      else .stall (atMem (s.setCache c k) { x with memIssued := true }) := by
  have hu : (atMem (s.setCache c k) x).setMem { (atMem (s.setCache c k) x).pipe.mem with memIssued := true } =
      atMem (s.setCache c k) { x with memIssued := true } := rfl
  by_cases hik : k.ctrl = .idle <;> simp [cacheIssue, ht, hp, hi, perform_atMem, hk, hu, hik]

end

/-- An operation that does nothing leaves the state, marked issued or not. -/
theorem cacheIssue_unchanged {op : Nat} {s : State} {pa : Word} {x : Snapshot} (hx : x.memIssued = false)
    (h : (cacheAction op).target = none ∨ ∃ c, (cacheAction op).target = some c ∧
      (s.cfg.present c = false ∨ (s.cache c).ctrl = .idle ∧ lookup s c pa = none)) :
    ∃ b, cacheIssue op pa (atMem s x) = .done (atMem s { x with memIssued := b }) := by
  have hsame : { x with memIssued := false } = x := by rw [← hx]
  rcases h with ht | ⟨c, ht, h⟩
  · exact ⟨false, by rw [cacheIssue_noOp ht, hsame]⟩
  · cases hp : s.cfg.present c with
    | false => exact ⟨false, by rw [cacheIssue_absent (s := atMem s x) ht hp, hsame]⟩
    | true =>
      obtain ⟨hi, hl⟩ := h.resolve_left (by simp [hp])
      exact ⟨true, by rw [cacheIssue_idle ht x (k := s.cache c) hp hi (by rw [perform_miss ht hl, setCache_cache]), if_pos hi,
        setCache_cache]⟩

/-- What CACHE changes besides its cache, the end of the run and the shadow. -/
def onlyCache (c : CacheId) (s t : State) : Prop :=
  sameGpr s t ∧ sameHiLo s t ∧ sameCp0 s t ∧ t.mem = s.mem ∧ t.devLog = s.devLog ∧ sameBus s t ∧ sameRun s t ∧
    ∀ d, d ≠ c → t.cache d = s.cache d

/-- The commit of CACHE alone. -/
theorem commit_setCache (s : State) (c : CacheId) (k : Cache) {y : Snapshot} (hd : y.dest = .none) :
    let t := commit (atWb { s.setCache c k with intShadow := false } y) y
    t.cache c = k ∧ onlyCache c s t ∧ committed s t y.pc := by
  intro t
  obtain ⟨hcp0, hshadow, hgpr, hhilo, -, ⟨-, -, hbus⟩, hrun, hhalted⟩ := commit_onlyCp0 (s.setCache c k) hd
  have hcache (d : CacheId) : t.cache d = (s.setCache c k).cache d :=
    match d with
    | .icache => commit_icache _ _
    | .dcache => commit_dcache _ _
  have hothers (d : CacheId) (h : d ≠ c) : t.cache d = s.cache d := (hcache d).trans (cache_setCache_other h s k)
  have hmem : t.mem = (s.setCache c k).mem := commit_mem _ _
  have hlog : t.devLog = (s.setCache c k).devLog := commit_devLog _ _
  refine ⟨(hcache c).trans (cache_setCache s c k), ?_⟩
  cases c <;> exact ⟨⟨hgpr, hhilo, hcp0, hmem, hlog, hbus, hrun, hothers⟩, hhalted, hshadow⟩

/-- CACHE alone whose translation passes. -/
theorem cacheWork_alone {base : Reg} {op : Nat} {off : BitVec 16} {s : State} {p pa : Word} {b : Bool}
    (hr : addressTranslateUnchecked s (readGpr s base + off.signExtend 32) .load =
    { pa := some pa, cacheable := b, recs := [] }) :
    cacheWork op (atMem s (accessing (.cache base op off) s p)) =
      cacheIssue op pa (atMem s (accessing (.cache base op off) s p)) := by
  refine cacheWork_issues rfl rfl (b := b) ?_
  rw [← (isAccess_cache base op off).ea s p] at hr
  exact hr

section
variable {base : Reg} {op : Nat} {off : BitVec 16} {s : State} {p pa : Word} {c : CacheId} {k : Cache}
  (hn : noInterrupt s) (hc : copAllowed s 0#2 = true)
include hn hc

/-- CACHE alone whose MEM step ends. -/
theorem cache_commits {b : Bool} (hw : cacheWork op (atMem s (accessing (.cache base op off) s p)) =
      .done (atMem (s.setCache c k) { accessing (.cache base op off) s p with memIssued := b })) :
    ∃ t, runsTo (.cache base op off) s p t ∧ t.cache c = k ∧ onlyCache c s t ∧ committed s t p := by
  exact ⟨_, (isAccess_cache base op off).commits (copCheck_allowed hc) hn hw rfl (by cases c <;> rfl), commit_setCache s c k rfl⟩

/-- CACHE alone whose MEM step is to be retried. -/
theorem cache_stalls {b : Bool} (hw : cacheWork op (atMem s (accessing (.cache base op off) s p)) =
      .stall (atMem (s.setCache c k) { accessing (.cache base op off) s p with memIssued := b })) :
    ∃ t, runsTo (.cache base op off) s p t ∧
      (stallsInMem (.cache base op off) s t p (readGpr s base + off.signExtend 32) b ∧ t.cache c = k) ∧ onlyCache c s t := by
  have h := isAccess_cache base op off
  have hslot := stallsInMem_atMem (i := .cache base op off) (s := s) (y := { accessing (.cache base op off) s p with memIssued := b })
    (s.setCache c k).icache (s.setCache c k).dcache ⟨rfl, rfl, rfl, h.ea s p, rfl, rfl, rfl, rfl⟩
  have hothers (d : CacheId) (hd : d ≠ c) : (s.setCache c k).cache d = s.cache d := cache_setCache_other hd s k
  refine ⟨_, h.retries (copCheck_allowed hc) hn hw, ?_⟩
  cases c <;> exact ⟨⟨hslot, rfl⟩, fun _ => rfl, ⟨rfl, rfl⟩, ⟨rfl, rfl, rfl, rfl, rfl⟩, rfl, rfl, ⟨rfl, rfl, rfl⟩,
    ⟨rfl, rfl, rfl, rfl, rfl⟩, hothers⟩

/-- CACHE alone whose operation its idle cache does at once. -/
theorem cache_done {b : Bool} (hr : addressTranslateUnchecked s (readGpr s base + off.signExtend 32) .load =
      { pa := some pa, cacheable := b, recs := [] }) (ht : (cacheAction op).target = some c) (hp : s.cfg.present c = true)
    (hi : (s.cache c).ctrl = .idle) (hk : (cacheAction op).perform s pa = s.setCache c k) (hki : k.ctrl = .idle) :
    ∃ t, runsTo (.cache base op off) s p t ∧ t.cache c = k ∧ onlyCache c s t ∧ committed s t p := by
  refine cache_commits hn hc (b := true) ?_
  rw [cacheWork_alone hr, cacheIssue_idle ht _ hp hi hk, if_pos hki]

/-- CACHE alone whose operation starts a writeback. -/
theorem cache_writes {b : Bool} (hr : addressTranslateUnchecked s (readGpr s base + off.signExtend 32) .load =
      { pa := some pa, cacheable := b, recs := [] }) (ht : (cacheAction op).target = some c) (hp : s.cfg.present c = true)
    (hi : (s.cache c).ctrl = .idle) (hk : (cacheAction op).perform s pa = s.setCache c k) (hki : k.ctrl ≠ .idle) :
    ∃ t, runsTo (.cache base op off) s p t ∧
      (stallsInMem (.cache base op off) s t p (readGpr s base + off.signExtend 32) true ∧ t.cache c = k) ∧ onlyCache c s t := by
  refine cache_stalls hn hc (b := true) ?_
  rw [cacheWork_alone hr, cacheIssue_idle ht _ hp hi hk, if_neg hki]

/-- CACHE alone that does not issue, its cache busy. -/
theorem cache_busy {b : Bool} (hr : addressTranslateUnchecked s (readGpr s base + off.signExtend 32) .load =
      { pa := some pa, cacheable := b, recs := [] }) (ht : (cacheAction op).target = some c) (hp : s.cfg.present c = true)
    (hi : (s.cache c).ctrl ≠ .idle) :
    ∃ t, runsTo (.cache base op off) s p t ∧
      stallsInMem (.cache base op off) s t p (readGpr s base + off.signExtend 32) false ∧ ∀ d, t.cache d = s.cache d := by
  obtain ⟨t, hrun, ⟨hstall, hcache⟩, -, -, -, -, -, -, -, hothers⟩ :=
    cache_stalls (op := op) (base := base) (off := off) (p := p) (c := c) (k := s.cache c) hn hc (b := false) (by
      rw [cacheWork_alone hr, cacheIssue_busy (s := atMem s _) ht hp (by rwa [cache_atMem]), setCache_cache]
      rfl)
  refine ⟨t, hrun, hstall, fun d => ?_⟩
  by_cases hd : d = c
  · exact hd ▸ hcache
  · exact hothers d hd

end

/-- Settles O27: CACHE either has no cache to act on, or does not find its line there. -/
theorem cacheNoOps : Obligations.CacheNoOps := by
  intro s p base op off pa b hn hc hr hop
  have hnothing : (cacheAction op).target = none ∨ ∃ c, (cacheAction op).target = some c ∧
      (s.cfg.present c = false ∨ (s.cache c).ctrl = .idle ∧ lookup s c pa = none) := by
    rcases hop with hop | ⟨hop, h⟩ | ⟨hop, h⟩
    · exact .inl (cacheAction_noOp hop)
    · exact .inr ⟨.icache, cacheAction_target (.inl ⟨hop, rfl⟩), h⟩
    · exact .inr ⟨.dcache, cacheAction_target (.inr ⟨hop, rfl⟩), h⟩
  obtain ⟨issued, hissue⟩ := cacheIssue_unchanged (x := accessing (.cache base op off) s p) rfl hnothing
  obtain ⟨t, hrun, hdcache, ⟨hgpr, hhilo, hcp0, hmem, hlog, hbus, ⟨hcycle, hload, hdraws, hcfg, hpc⟩, hothers⟩, hcommitted⟩ :=
    cache_commits (c := .dcache) (k := s.dcache) hn hc (b := issued) ((cacheWork_alone hr).trans hissue)
  exact ⟨t, hrun, hgpr, hmem, hlog, hdcache, hdraws, hhilo, hcp0, hothers .icache nofun, hbus, hcycle, hcfg, hpc, hload, hcommitted⟩

/-! ### Hits -/

theorem perform_hitInvalidate {s : State} {c : CacheId} {pa : Word} {way : Nat} (hl : lookup s c pa = some way) :
    (CacheAction.hitInvalidate c).perform s pa = s.setCache c ((s.cache c).updLine (s.cfg.geom c) way ((s.cfg.geom c).index pa)
      fun l => { l with valid := false, dirty := false }) := by
  simp only [CacheAction.perform, opHitInvalidate, hl]

section
variable {s : State} {c : CacheId} {pa : Word} {way : Nat} (hl : lookup s c pa = some way)
include hl

theorem perform_clean (hd : ((s.cache c).line (s.cfg.geom c) way ((s.cfg.geom c).index pa)).dirty = false) :
    (CacheAction.hitWriteback c).perform s pa = s ∧
    (CacheAction.hitWbInvalidate c).perform s pa = (CacheAction.hitInvalidate c).perform s pa := by
  constructor
  · simp [CacheAction.perform, opHitWriteback, hl, hd]
  · simp [CacheAction.perform, opHitWbInvalidate, opHitInvalidate, hl, hd, Cache.updLine]

theorem perform_dirty (hd : ((s.cache c).line (s.cfg.geom c) way ((s.cfg.geom c).index pa)).dirty = true) :
    let writing (inv : Bool) := { s.cache c with
      ctrl := .opWriteback
      txn := some (writebackTxn (s.cfg.geom c) c ((s.cfg.geom c).lineBase pa) way ((s.cfg.geom c).index pa) inv none) }
    (CacheAction.hitWriteback c).perform s pa = s.setCache c (writing false) ∧
    (CacheAction.hitWbInvalidate c).perform s pa = s.setCache c (writing true) := by
  constructor
  · simp [CacheAction.perform, opHitWriteback, hl, hd]
  · simp [CacheAction.perform, opHitWbInvalidate, hl, hd]

end

/-- CACHE in MEM, issued before: it waits for its cache and is not sampled for interrupts (R164, R462). -/
theorem cache_issued {op : Nat} {s : State} {c : CacheId} (base : Reg) (off : BitVec 16)
    (ht : (cacheAction op).target = some c) (ha : s.active = .memory) (hissued : s.pipe.mem.memIssued = true) :
    exec (.cache base op off) s =
      if (s.cache c).ctrl = .idle then .next { s with stall := false, intShadow := false } else .next { s with stall := true } := by
  have hexec : exec (.cache base op off) s = memStep false (cacheWork op) s := byStage_memory ha _ _ _ _
  have hsample : sampleInterrupt s = s := by simp [sampleInterrupt, hissued]
  have hwork : cacheWork op s = if (s.cache c).ctrl ≠ .idle then .stall s else .done s := by
    simp only [cacheWork, hissued, if_true, cacheWait, ht]
  have hshadow : (if s.intShadow then false else s.intShadow) = false := by cases s.intShadow <;> rfl
  rw [hexec, memStep, hsample, hwork]
  by_cases hi : (s.cache c).ctrl = .idle <;> simp [hi, hshadow]

/-- An instruction in WB without records and destination. -/
theorem wbStage_noDest {s : State} (he : s.pipe.wb.exc = []) (hd : s.pipe.wb.dest = .none) :
    wbStage s = .next (haltCheck s s.pipe.wb.pc) := by
  have hselect : selectRecord [] = none := rfl
  have hreg : Selector.destReg .none = none := rfl
  simp only [wbStage, he, hselect, commit, hd, hreg]

/-- Settles O28: a busy cache, a hit by what its operation makes of the line, and the wait of an issued CACHE. -/
theorem cacheHits : Obligations.CacheHits := by
  refine ⟨?_, ?_, ?_⟩
  · intro s p base op off pa b c hn hc hr hop hp hi
    obtain ⟨t, hrun, hstall, hcache⟩ := cache_busy (p := p) hn hc hr (cacheAction_target hop) hp hi
    exact ⟨t, hrun, hstall, hcache .icache, hcache .dcache⟩
  · intro s p base off pa b c way hn hc hr hp hi hl g k l dropped writing rest
    have ends {op k'} (ht : (cacheAction op).target = some c) (hk : (cacheAction op).perform s pa = s.setCache c k')
        (hki : k'.ctrl = .idle) : ∃ t, runsTo (.cache base op off) s p t ∧ t.cache c = k' ∧ rest t ∧ committed s t p :=
      cache_done hn hc hr ht hp hi hk hki
    have starts {op k'} (ht : (cacheAction op).target = some c) (hk : (cacheAction op).perform s pa = s.setCache c k')
        (hki : k'.ctrl ≠ .idle) : ∃ t, runsTo (.cache base op off) s p t ∧
          (stallsInMem (.cache base op off) s t p (readGpr s base + off.signExtend 32) true ∧ t.cache c = k') ∧ rest t :=
      cache_writes hn hc hr ht hp hi hk hki
    refine ⟨fun op hop => ?_, fun hcd hd => ?_, fun hcd hd => ?_⟩
    · have ha : cacheAction op = .hitInvalidate c := by cases c <;> subst hop <;> rfl
      exact ends (ha ▸ rfl) (ha ▸ perform_hitInvalidate hl) hi
    · subst hcd
      obtain ⟨hwb, hinv⟩ := perform_clean hl hd
      exact ⟨ends rfl (hwb.trans (setCache_cache s .dcache).symm) hi, ends rfl (hinv.trans (perform_hitInvalidate hl)) hi⟩
    · subst hcd
      obtain ⟨hwb, hinv⟩ := perform_dirty hl hd
      exact ⟨starts rfl hwb nofun, starts rfl hinv nofun⟩
  · intro s base op off c hop hissued waiting
    have hexec := cache_issued (s := waiting) base off (cacheAction_target hop) rfl hissued
    have hcache : waiting.cache c = s.cache c := by cases c <;> rfl
    refine ⟨fun hi => hexec.trans (if_neg (hcache ▸ hi)), fun hi => ⟨hexec.trans (if_pos (hcache ▸ hi)), fun he hd => ?_⟩⟩
    exact (exec_writeback _ rfl).trans (wbStage_noDest (s := advance { s with active := .writeback }) he hd)

end Sys2Proof.Machine
end

section
/-! O1 to O4. The decoder and the encoder (spec/30_encoding.md R200 to R220): they agree on every well-formed instruction,
the words rejected are those of the cells the maps mark rsvd, and the fields an encoding does not name are not read. -/

namespace Sys2Proof

/-! ### Decoding an encoded instruction -/

/-- Every instruction is read back from its word. -/
theorem roundTrip : ∀ i : Instr, Laws.RoundTrip.Statement i :=
  open Laws in Instr.rec (motive := RoundTrip.Statement)
    RoundTrip.sll RoundTrip.srl RoundTrip.sra RoundTrip.sllv RoundTrip.srlv RoundTrip.srav RoundTrip.jr RoundTrip.jalr
    RoundTrip.syscall RoundTrip.brk RoundTrip.mfhi RoundTrip.mthi RoundTrip.mflo RoundTrip.mtlo RoundTrip.mult
    RoundTrip.multu RoundTrip.div RoundTrip.divu RoundTrip.add RoundTrip.addu RoundTrip.sub RoundTrip.subu
    RoundTrip.and RoundTrip.or RoundTrip.xor RoundTrip.nor RoundTrip.slt RoundTrip.sltu RoundTrip.bltz RoundTrip.bgez
    RoundTrip.bltzal RoundTrip.bgezal RoundTrip.j RoundTrip.jal RoundTrip.beq RoundTrip.bne RoundTrip.blez
    RoundTrip.bgtz RoundTrip.addi RoundTrip.addiu RoundTrip.slti RoundTrip.sltiu RoundTrip.andi RoundTrip.ori
    RoundTrip.xori RoundTrip.lui RoundTrip.lb RoundTrip.lh RoundTrip.lwl RoundTrip.lw RoundTrip.lbu RoundTrip.lhu
    RoundTrip.lwr RoundTrip.sb RoundTrip.sh RoundTrip.swl RoundTrip.sw RoundTrip.swr RoundTrip.cache RoundTrip.mfc0
    RoundTrip.mtc0 RoundTrip.tlbr RoundTrip.tlbwi RoundTrip.tlbwr RoundTrip.tlbp RoundTrip.rfe RoundTrip.cop1
    RoundTrip.cop2 RoundTrip.cop3 RoundTrip.lwc1 RoundTrip.lwc2 RoundTrip.lwc3 RoundTrip.swc1 RoundTrip.swc2
    RoundTrip.swc3

theorem append_byteOf (w : Word) : byteOf w 3 ++ byteOf w 2 ++ byteOf w 1 ++ byteOf w 0 = w := by
  unfold byteOf
  rw [BitVec.extractLsb'_append_extractLsb'_eq_extractLsb' (start₂ := 8 * 3) (start₁ := 8 * 2) rfl,
    BitVec.extractLsb'_append_extractLsb'_eq_extractLsb' (start₂ := 8 * 2) (start₁ := 8 * 1) rfl,
    BitVec.extractLsb'_append_extractLsb'_eq_extractLsb' (start₂ := 8 * 1) (start₁ := 8 * 0) rfl]
  exact BitVec.extractLsb'_eq_self

/-- Decoding the bytes of a word is decoding the word, and takes those four bytes only. -/
theorem decodeBytes_bytesOfWord {w : Word} {i : Instr} (h : decode w = .ok i) (e : Endian) (rest : List Byte) :
    decodeBytes e (bytesOfWord e w ++ rest) = .ok (i, rest) := by
  cases e <;> simp [decodeBytes, bytesOfWord, wordOfBytes, append_byteOf, h]

/-- Settles O1: the word by the round trip of each instruction, the bytes by putting the word together from them. -/
theorem decodeEncode : Obligations.DecodeEncode := fun i hi =>
  ⟨roundTrip i hi, decodeBytes_bytesOfWord (roundTrip i hi)⟩

/-! ### What the decoder answers is well-formed -/

theorem fits5_toNat (b : BitVec 5) : fits5 b.toNat = true := decide_eq_true b.isLt

theorem decodeSpecial_wellFormed {w : Word} {i : Instr} (h : decodeSpecial w = .ok i) : i.wellFormed = true := by
  unfold decodeSpecial at h
  split at h <;> cases h <;> simp [Instr.wellFormed, fits5_toNat]

theorem decodeRegimm_wellFormed {w : Word} {i : Instr} (h : decodeRegimm w = .ok i) : i.wellFormed = true := by
  unfold decodeRegimm at h
  split at h <;> cases h <;> rfl

theorem decodeCop0Op_wellFormed {w : Word} {i : Instr} (h : decodeCop0Op w = .ok i) : i.wellFormed = true := by
  unfold decodeCop0Op at h
  split at h <;> cases h <;> rfl

theorem decodeCop0_wellFormed {w : Word} {i : Instr} (h : decodeCop0 w = .ok i) : i.wellFormed = true := by
  unfold decodeCop0 at h
  split at h
  · exact decodeCop0Op_wellFormed h
  · split at h <;> cases h <;> exact fits5_toNat _

theorem decode_wellFormed {w : Word} {i : Instr} (h : decode w = .ok i) : i.wellFormed = true := by
  unfold decode at h
  split at h
  case h_1 => exact decodeSpecial_wellFormed h
  case h_2 => exact decodeRegimm_wellFormed h
  case h_30 => exact decodeCop0_wellFormed h
  all_goals cases h <;> simp [Instr.wellFormed, fits5_toNat]

/-! ### Which words are rejected -/

theorem decodeSpecial_error_iff (w : Word) : (∃ r, decodeSpecial w = .error r) ↔
    functOf w ∉ [0x00#6, 0x02#6, 0x03#6, 0x04#6, 0x06#6, 0x07#6, 0x08#6, 0x09#6, 0x0C#6, 0x0D#6, 0x10#6, 0x11#6, 0x12#6,
      0x13#6, 0x18#6, 0x19#6, 0x1A#6, 0x1B#6, 0x20#6, 0x21#6, 0x22#6, 0x23#6, 0x24#6, 0x25#6, 0x26#6, 0x27#6, 0x2A#6,
      0x2B#6] := by
  unfold decodeSpecial
  split <;> simp_all

theorem decodeRegimm_error_iff (w : Word) : (∃ r, decodeRegimm w = .error r) ↔
    rtBits w ∉ [0x00#5, 0x01#5, 0x10#5, 0x11#5] := by
  unfold decodeRegimm
  split <;> simp_all

theorem decodeCop0Op_error_iff (w : Word) : (∃ r, decodeCop0Op w = .error r) ↔
    functOf w ∉ [0x01#6, 0x02#6, 0x06#6, 0x08#6, 0x10#6] := by
  unfold decodeCop0Op
  split <;> simp_all

/-- The CO bit is the top bit of the rs field. -/
theorem getLsbD_four_iff (b : BitVec 5) : b.getLsbD 4 = true ↔ 0x10#5 ≤ b := by
  revert b
  decide

theorem decodeCop0_error_iff (w : Word) : (∃ r, decodeCop0 w = .error r) ↔
    (rsBits w < 0x10#5 ∧ rsBits w ∉ [0x00#5, 0x04#5]) ∨
      (0x10#5 ≤ rsBits w ∧ functOf w ∉ [0x01#6, 0x02#6, 0x06#6, 0x08#6, 0x10#6]) := by
  by_cases hco : 0x10#5 ≤ rsBits w
  · rw [decodeCop0, if_pos ((getLsbD_four_iff _).mpr hco), decodeCop0Op_error_iff]
    simp [hco, BitVec.not_lt.mpr hco]
  · rw [decodeCop0, if_neg (mt (getLsbD_four_iff _).mp hco)]
    simp only [hco, BitVec.not_le.mp hco, true_and, false_and, or_false]
    split <;> simp_all

/-- The opcodes of R213 with an instruction or a table of their own, the rejected words under the latter apart. -/
theorem decode_error_iff (w : Word) : (∃ r, decode w = .error r) ↔
    opOf w ∉ [0x00#6, 0x01#6, 0x02#6, 0x03#6, 0x04#6, 0x05#6, 0x06#6, 0x07#6, 0x08#6, 0x09#6, 0x0A#6, 0x0B#6, 0x0C#6,
      0x0D#6, 0x0E#6, 0x0F#6, 0x10#6, 0x11#6, 0x12#6, 0x13#6, 0x20#6, 0x21#6, 0x22#6, 0x23#6, 0x24#6, 0x25#6, 0x26#6,
      0x28#6, 0x29#6, 0x2A#6, 0x2B#6, 0x2E#6, 0x2F#6, 0x31#6, 0x32#6, 0x33#6, 0x39#6, 0x3A#6, 0x3B#6] ∨
    (opOf w = 0x00#6 ∧ ∃ r, decodeSpecial w = .error r) ∨ (opOf w = 0x01#6 ∧ ∃ r, decodeRegimm w = .error r) ∨
    (opOf w = 0x10#6 ∧ ∃ r, decodeCop0 w = .error r) := by
  unfold decode
  split <;> simp_all

/-- Settles O2: a result is well-formed in every arm of the decoder, and the cells that its maps name and the cells
marked rsvd are each other's complement. -/
theorem reservedEncodings : Obligations.ReservedEncodings := by
  refine ⟨fun w i => decode_wellFormed, fun w => ?_⟩
  rw [decode_error_iff, decodeSpecial_error_iff, decodeRegimm_error_iff, decodeCop0_error_iff, and_or_left]
  refine or_congr ?_ (or_congr (and_congr_right' ?_) Iff.rfl)
  · generalize opOf w = op
    revert op
    decide
  · generalize functOf w = f
    revert f
    decide

/-! ### Fields that are not read -/

theorem decode_rWord (rs rt rd sa : BitVec 5) (f : BitVec 6) :
    decode (rWord rs rt rd sa f) = decodeSpecial (rWord rs rt rd sa f) := by simp [decode]

section
variable (op : BitVec 6) (rs rt rd sa : BitVec 5) (f : BitVec 6)

theorem opOf_append : opOf (op ++ rs ++ rt ++ rd ++ sa ++ f) = op := by
  unfold opOf
  rw [extract_above, extract_above, extract_above, extract_above, extract_above] <;> simp

theorem rsBits_append : rsBits (op ++ rs ++ rt ++ rd ++ sa ++ f) = rs := by
  unfold rsBits
  rw [extract_above, extract_above, extract_above, extract_above, extract_within] <;> simp

theorem rtBits_append : rtBits (op ++ rs ++ rt ++ rd ++ sa ++ f) = rt := by
  unfold rtBits
  rw [extract_above, extract_above, extract_above, extract_within] <;> simp

theorem rdBits_append : rdBits (op ++ rs ++ rt ++ rd ++ sa ++ f) = rd := by
  unfold rdBits
  rw [extract_above, extract_above, extract_within] <;> simp

theorem functOf_append : functOf (op ++ rs ++ rt ++ rd ++ sa ++ f) = f := by
  unfold functOf
  rw [extract_within] <;> simp

end

theorem decode_cop0 {w : Word} (h : opOf w = 0x10#6) : decode w = decodeCop0 w := by simp [decode, h]

/-- An operation of coprocessor 0 is read from its function field alone. -/
theorem decode_cop0Operation_congr {v w : Word} (hv : opOf v = 0x10#6) (hw : opOf w = 0x10#6) (hvco : 0x10#5 ≤ rsBits v)
    (hwco : 0x10#5 ≤ rsBits w) (hf : functOf v = functOf w) : decode v = decode w := by
  rw [decode_cop0 hv, decode_cop0 hw, decodeCop0, decodeCop0, if_pos ((getLsbD_four_iff _).mpr hvco),
    if_pos ((getLsbD_four_iff _).mpr hwco), decodeCop0Op, decodeCop0Op, hf]

/-- A move to or from coprocessor 0 is read from its rs, rt and rd fields alone. -/
theorem decode_cop0Move_congr {v w : Word} (hv : opOf v = 0x10#6) (hw : opOf w = 0x10#6) (hco : ¬ 0x10#5 ≤ rsBits w)
    (hrs : rsBits v = rsBits w) (hrt : rtBits v = rtBits w) (hrd : rdBits v = rdBits w) : decode v = decode w := by
  have hmove := mt (getLsbD_four_iff _).mp hco
  rw [decode_cop0 hv, decode_cop0 hw, decodeCop0, decodeCop0, hrs, hrt, hrd, if_neg hmove, if_neg hmove]

/-- Settles O3: each shape's arms of the decoder read only the fields that R211 and R216 give the shape. -/
theorem unusedFieldsIgnored : Obligations.UnusedFieldsIgnored := by
  refine ⟨?threeRegister, ?shift, ?multiply, ?rsOnly, ?jalr, ?rdOnly, ?branch, ?lui, ?cop0Move, ?cop0Operation⟩
  case threeRegister | shift | multiply | rsOnly | jalr | rdOnly =>
    intro rs rt rd sa
    simp [decode_rWord, decodeSpecial]
  case branch =>
    intro op rs rt imm hop
    simp only [List.mem_cons, List.not_mem_nil, or_false] at hop
    rcases hop with rfl | rfl <;> simp [decode]
  case lui =>
    intro rs rt imm
    simp [decode]
  case cop0Move =>
    intro rs rt rd sa f hrs
    refine decode_cop0Move_congr (opOf_append ..) (opOf_append ..) ?_ ?_ ?_ ?_
    · have hlow : ∀ b ∈ [0x00#5, 0x04#5], ¬ 0x10#5 ≤ b := by decide
      rw [rsBits_append]
      exact hlow rs hrs
    · rw [rsBits_append, rsBits_append]
    · rw [rtBits_append, rtBits_append]
    · rw [rdBits_append, rdBits_append]
  case cop0Operation =>
    intro rs rt rd sa f hco
    refine decode_cop0Operation_congr (opOf_append ..) (opOf_append ..) ?_ ?_ ?_
    · rwa [rsBits_append]
    · rw [rsBits_append]
      exact BitVec.le_refl _
    · rw [functOf_append, functOf_append]

/-- Settles O4: thirteen words, decoded. -/
theorem sampleWords : Obligations.SampleWords := by
  unfold Obligations.SampleWords
  decide

end Sys2Proof
end

section
/-! O40. A word that decodes to no instruction, alone in the pipeline (spec/60_exceptions.md R453 to R455). -/

namespace Sys2Proof.Machine

/-- The usable check of coprocessor 0 fails in user mode with CU0 clear (R420). -/
theorem copAllowed_zero_eq_false {s : State} : copAllowed s 0#2 = false ↔ s.userMode = true ∧ s.copUsable 0#2 = false := by
  simp [copAllowed]

theorem reservedCheck_eq (s : State) (w : Word) : reservedCheck s w =
    [if opOf w = 0x10#6 ∧ s.userMode = true ∧ s.copUsable 0#2 = false then { kind := .cpu, mode := .any, cop := 0#2 }
      else { kind := .ri, mode := .any }] := by
  simp only [reservedCheck, copAllowed_zero_eq_false]
  split <;> rfl

theorem reservedWord_decode {s : State} (h : s.active = .decode) :
    reservedWord s = decodeStep reservedOut (reservedCheck s s.pipe.dec.instr) s := by
  simp [reservedWord, byStage, h]

theorem reservedWord_atEx (s : State) (x : Snapshot) : reservedWord (atEx s x) = exStage noCompute noEffect (atEx s x) := rfl

theorem reservedWord_atMem (s : State) (x : Snapshot) : reservedWord (atMem s x) = memPass (atMem s x) := rfl

theorem reservedWord_atWb (s : State) (x : Snapshot) : reservedWord (atWb s x) = wbStage (atWb s x) := rfl

/-- A reserved word's record from ID stays with it through EX and MEM, an interrupt or not, and WB takes it. -/
theorem passAlone_reservedWord {s : State} {w : Word} {r : ExcRecord} (h : reservedCheck s w = [r]) (hr : r.rank ≤ 90)
    (p : Word) : ∃ y b, passAlone reservedWord (issue s p w) = .next (takeException (atWb { s with intShadow := b } y) p r) := by
  obtain ⟨a, hid, ha⟩ := decodeStep_alone reservedOut (reservedCheck s w) s p w
  have hid : reservedWord { issue s p w with active := .decode } = .next a := (reservedWord_decode rfl).trans hid
  have hex : exStage noCompute noEffect (atEx s (idSnapshot p w reservedOut [r])) =
      .next (atEx s (valued s (idSnapshot p w reservedOut [r]))) := by
    rw [exStage_alone_record _ _ _ _ (by rw [resolved_id]; exact List.cons_ne_nil _ _), resolved_id]
    rfl
  obtain ⟨y, b, hmem, hpc, hsel⟩ := memPass_alone_record s (valued s (idSnapshot p w reservedOut [r])) r rfl hr
  have hpc : y.pc = p := hpc
  refine ⟨y, b, ?_⟩
  rw [passAlone, hid, andThen_next, ha, h, reservedWord_atEx, hex, andThen_next, advance_atEx, reservedWord_atMem, hmem,
    andThen_next, ← hpc]
  exact (reservedWord_atWb ..).trans (wbStage_alone_record { s with intShadow := b } y r hsel)

/-- Settles O40: the record of ID is the one taken, and its entry is all that happens. -/
theorem reservedInstructionTraps : Obligations.ReservedInstructionTraps := by
  intro s p w _
  obtain ⟨y, b, hpass⟩ := passAlone_reservedWord (reservedCheck_eq s w) (by split <;> decide) p
  exact ⟨_, hpass, tookException_takeException s y b p _⟩

end Sys2Proof.Machine
end

section
/-! O5, O6, O7, O11. Instructions that compute a register in EX and have no other effect, alone in the pipeline
(spec/40_alu.md R300 to R325, R330, R331). -/

namespace Sys2Proof.Machine

/-! ### The passage of a computing instruction -/

/-- `i` computes in EX, has no effect there, accesses nothing and writes `rd`. -/
structure Computes (i : Instr) (rd : Reg) (compute : State → Snapshot → Snapshot) : Prop where
  exec : exec i = stages (decodeOut i) none compute noEffect memPass
  dest : (decodeOut i).dest = .reg rd

section
variable {i : Instr} {rd : Reg} {compute : State → Snapshot → Snapshot} {s : State} {p : Word} (h : Computes i rd compute)
include h

/-- Alone, it commits the result it computes if it computes no more than that. -/
theorem Computes.commits {v : Word} (hn : noInterrupt s)
    (hv : ∀ x, compute (atEx s x) (executing i s p) = { executing i s p with result := v }) :
    ∃ t, runsTo i s p t ∧ gets t rd v ∧ onlyGpr rd s t p := by
  obtain ⟨hgets, honly⟩ := commit_onlyGpr s (y := { executing i s p with result := v }) h.dest
  refine ⟨_, ?_, hgets, honly⟩
  rw [runsTo, runAlone, h.exec]
  exact passAlone_commits rfl ((congrArg _ (resolved_id ..)).trans (hv _)) rfl rfl rfl (.inr hn)

/-- Alone, it takes the one record it computes, an interrupt requested or not. -/
theorem Computes.takes {r : ExcRecord} (hr : r.rank ≤ 90) {x : Snapshot}
    (hx : ∀ y, compute (atEx s y) (executing i s p) = x) (he : x.exc = [r]) (hp : x.pc = p) : traps i s p r := by
  obtain ⟨y, b, hpass⟩ := passAlone_traps (n := none) ((congrArg _ (resolved_id ..)).trans (hx _)) he hp hr
  refine ⟨_, ?_, tookException_takeException s y b p r⟩
  rw [runsTo, runAlone, h.exec]
  exact hpass

end

/-! ### Three-register and immediate instructions -/

/-- An ALU instruction that cannot trap gets `f` of its operands (R300). -/
theorem Computes.alu {i : Instr} {rd : Reg} {f : Word → Word → Word} (h : Computes i rd (resultOf f)) {s : State}
    (hn : noInterrupt s) (p : Word) {v : Word} (hv : f (executing i s p).valA (executing i s p).valB = v) :
    ∃ t, runsTo i s p t ∧ gets t rd v ∧ onlyGpr rd s t p :=
  h.commits hn fun _ => hv ▸ rfl

theorem boolWord_ltSigned (x y : Word) : boolWord (ltSigned x y) = if x.toInt < y.toInt then 1#32 else 0#32 := by
  simp only [boolWord, ltSigned, BitVec.slt_iff_toInt_lt]

theorem boolWord_ltUnsigned (x y : Word) : boolWord (ltUnsigned x y) = if x.toNat < y.toNat then 1#32 else 0#32 := by
  simp only [boolWord, ltUnsigned, BitVec.ult_iff_lt, BitVec.lt_def]

/-- A shift amount is read modulo 32 (R323). -/
theorem lowFive_eq (x : Word) : lowFive x = x.toNat % 32 :=
  (BitVec.toNat_and _ _).trans (Nat.and_two_pow_sub_one_eq_mod _ 5)

/-- Settles O5: each instruction's operands are the old rs and rt, its result the function of R303 to R325. -/
theorem threeRegisterResults : Obligations.ThreeRegisterResults := by
  intro s p rs rt rd hn
  have row {i f} (h : Computes i rd (resultOf f)) {v} (hv : f (executing i s p).valA (executing i s p).valB = v) :=
    h.alu hn p hv
  simp only [List.forall_mem_cons]
  exact ⟨row ⟨rfl, rfl⟩ rfl, row ⟨rfl, rfl⟩ rfl, row ⟨rfl, rfl⟩ (boolWord_ltSigned _ _), row ⟨rfl, rfl⟩ (boolWord_ltUnsigned _ _),
    row ⟨rfl, rfl⟩ rfl, row ⟨rfl, rfl⟩ rfl, row ⟨rfl, rfl⟩ rfl, row ⟨rfl, rfl⟩ rfl,
    row ⟨rfl, rfl⟩ (congrArg _ (lowFive_eq _)), row ⟨rfl, rfl⟩ (congrArg _ (lowFive_eq _)),
    row ⟨rfl, rfl⟩ (congrArg _ (lowFive_eq _)), nofun⟩

/-- The sign-extended immediate has the immediate's own value (R205). -/
theorem toInt_sext16 (imm : BitVec 16) : (sext16 imm).toInt = imm.toInt := BitVec.toInt_signExtend_of_le (by decide)

theorem zext16_eq_append (imm : BitVec 16) : zext16 imm = 0#16 ++ imm := BitVec.setWidth_eq_append (by decide)

theorem toNat_shamt {n : Nat} (h : n < 32) : (BitVec.ofNat 32 n).toNat = n := by
  rw [BitVec.toNat_ofNat]
  exact Nat.mod_eq_of_lt (Nat.lt_trans h (by decide))

/-- Settles O6: the second operand is the immediate as R205 extends it, or the first the constant shift amount. -/
theorem immediateResults : Obligations.ImmediateResults := by
  intro s p rs rt rd imm sa hn
  have row {i r f} (h : Computes i r (resultOf f)) {v} (hv : f (executing i s p).valA (executing i s p).valB = v) :=
    h.alu hn p hv
  have slti : boolWord (ltSigned (readGpr s rs) (sext16 imm)) = if (readGpr s rs).toInt < imm.toInt then 1#32 else 0#32 := by
    rw [boolWord_ltSigned, toInt_sext16]
  refine ⟨?_, fun hsa => ?_⟩ <;> simp only [List.forall_mem_cons]
  · exact ⟨row ⟨rfl, rfl⟩ rfl, row ⟨rfl, rfl⟩ slti, row ⟨rfl, rfl⟩ (boolWord_ltUnsigned _ _),
      row ⟨rfl, rfl⟩ (congrArg _ (zext16_eq_append imm)), row ⟨rfl, rfl⟩ (congrArg _ (zext16_eq_append imm)),
      row ⟨rfl, rfl⟩ (congrArg _ (zext16_eq_append imm)), row ⟨rfl, rfl⟩ rfl, nofun⟩
  · exact ⟨row ⟨rfl, rfl⟩ (congrArg _ (toNat_shamt hsa)), row ⟨rfl, rfl⟩ (congrArg _ (toNat_shamt hsa)),
      row ⟨rfl, rfl⟩ (congrArg _ (toNat_shamt hsa)), nofun⟩

/-! ### Adds that trap -/

/-- The overflow tests of R301 are those of the exact sum and difference. -/
theorem overflowAdd_iff (a b : Word) :
    overflowAdd a b = true ↔ a.toInt + b.toInt < -2 ^ 31 ∨ 2 ^ 31 ≤ a.toInt + b.toInt := by
  have h : overflowAdd a b = a.saddOverflow b := (BitVec.saddOverflow_eq a b).symm
  simp only [h, BitVec.saddOverflow, Bool.or_eq_true, decide_eq_true_eq]
  exact or_comm

theorem overflowSub_iff (a b : Word) :
    overflowSub a b = true ↔ a.toInt - b.toInt < -2 ^ 31 ∨ 2 ^ 31 ≤ a.toInt - b.toInt := by
  have h : overflowSub a b = a.ssubOverflow b := by
    rw [BitVec.ssubOverflow_eq, overflowSub]
    cases a.msb <;> cases b.msb <;> simp
  simp only [h, BitVec.ssubOverflow, Bool.or_eq_true, decide_eq_true_eq]
  exact or_comm

theorem ofInt_toInt_add (a b : Word) : BitVec.ofInt 32 (a.toInt + b.toInt) = a + b := by
  rw [BitVec.ofInt_add, BitVec.ofInt_toInt, BitVec.ofInt_toInt]

theorem ofInt_toInt_sub (a b : Word) : BitVec.ofInt 32 (a.toInt - b.toInt) = a - b := by
  rw [sub_eq_add_neg, BitVec.ofInt_add, BitVec.ofInt_neg, BitVec.ofInt_toInt, BitVec.ofInt_toInt, BitVec.sub_eq_add_neg]

/-- An instruction that traps on overflow, `z` the exact result: in range it gets it, out of range it takes Ov (R301). -/
theorem Computes.trapping {i : Instr} {rd : Reg} {f : Word → Word → Word} {overflow : Word → Word → Bool}
    (h : Computes i rd (trapOf f overflow)) (s : State) (p : Word) {z : Int}
    (hf : BitVec.ofInt 32 z = f (executing i s p).valA (executing i s p).valB)
    (ho : overflow (executing i s p).valA (executing i s p).valB = true ↔ z < -2 ^ 31 ∨ 2 ^ 31 ≤ z) :
    (noInterrupt s → -2 ^ 31 ≤ z → z < 2 ^ 31 →
      ∃ t, runsTo i s p t ∧ gets t rd (BitVec.ofInt 32 z) ∧ onlyGpr rd s t p) ∧
    (z < -2 ^ 31 ∨ 2 ^ 31 ≤ z → traps i s p { kind := .ov, mode := .any }) := by
  refine ⟨fun hn hlo hhi => h.commits hn fun _ => ?_, fun hz => ?_⟩
  · have hno : ¬ overflow (executing i s p).valA (executing i s p).valB = true := fun e => by
      have := ho.mp e
      omega
    rw [trapOf, if_neg hno, Snapshot.raise_nil, resultOf, ← hf]
  · exact h.takes (x := trapOf f overflow s (executing i s p)) (by decide) (fun _ => rfl) (if_pos (ho.mpr hz)) rfl

/-- Settles O7: the overflow tests ask whether the exact result is out of range. -/
theorem trappingAdds : Obligations.TrappingAdds := by
  intro s p rs rt rd imm
  simp only [List.forall_mem_cons]
  refine ⟨?add, ?sub, ?addi, nofun⟩
  case add => exact Computes.trapping ⟨rfl, rfl⟩ s p (ofInt_toInt_add _ _) (overflowAdd_iff _ _)
  case sub => exact Computes.trapping ⟨rfl, rfl⟩ s p (ofInt_toInt_sub _ _) (overflowSub_iff _ _)
  case addi =>
    rw [← toInt_sext16]
    exact Computes.trapping ⟨rfl, rfl⟩ s p (ofInt_toInt_add _ _) (overflowAdd_iff _ _)

end Sys2Proof.Machine
end

section
/-! O8 to O11. HI and LO, alone in the pipeline: multiply, divide and the moves (spec/40_alu.md R326 to R334). -/

namespace Sys2Proof.Machine

/-! ### The passage of an instruction that writes HI and LO -/

/-- `i` does `effect` in EX, accesses nothing and writes no general register. -/
structure WritesHiLo (i : Instr) (effect : Snapshot → State → Out) : Prop where
  exec : exec i = stages (decodeOut i) none noCompute effect memPass
  dest : (decodeOut i).dest = .none

/-- Alone, it commits the HI and LO of its effect, an interrupt requested or not: the mark of the effect stops the sample
(R462). -/
theorem WritesHiLo.commits {i : Instr} {effect : Snapshot → State → Out} (h : WritesHiLo i effect) (s : State) (p hi lo : Word)
    (n : Nat)
    (hf : effect (executing i s p) (atEx s (executing i s p)) = .next ((writeHiLo hi lo (atEx s (executing i s p))).drew n)) :
    ∃ t, runsTo i s p t ∧ t.hi = hi ∧ t.lo = lo ∧ t.draws = s.draws + n ∧ onlyHiLo s t p := by
  let s' : State := { s with hi := hi, lo := lo, draws := s.draws + n }
  let y : Snapshot := { executing i s p with exSideEffect := true }
  obtain ⟨⟨hhi, hlo⟩, hcp0, hmem, hcaches, ⟨hcycle, hload, hdraws, hcfg, hpc⟩, hcommitted⟩ := commit_atWb_same s' y
  obtain ⟨-, -, hgpr, -⟩ := commit_onlyCp0 s' (y := y) h.dest
  refine ⟨_, ?_, hhi, hlo, hdraws, hgpr, hcp0, hmem, hcaches, hcycle, hcfg, hpc, hload, hcommitted⟩
  rw [runsTo, runAlone, h.exec]
  exact passAlone_commits rfl (resolved_id ..) rfl (s' := s') (y := y) hf rfl (.inl rfl)

/-! ### Multiply -/

/-- The halves of a product put together again. -/
theorem append_halves (d : Dword) : d.extractLsb' 32 32 ++ d.extractLsb' 0 32 = d := by
  rw [BitVec.extractLsb'_append_extractLsb'_eq_extractLsb' (start₂ := 32) (start₁ := 0) rfl]
  exact BitVec.extractLsb'_eq_self

/-- 64 bits hold every signed product of two words. -/
theorem toInt_mul_signExtend (a b : Word) : (a.signExtend 64 * b.signExtend 64).toInt = a.toInt * b.toInt := by
  have hlo : -2 ^ 62 ≤ a.toInt * b.toInt := BitVec.le_toInt_mul_toInt
  have hhi : a.toInt * b.toInt ≤ 2 ^ 62 := BitVec.toInt_mul_toInt_le
  rw [BitVec.toInt_mul, BitVec.toInt_signExtend_of_le (by decide), BitVec.toInt_signExtend_of_le (by decide)]
  exact Int.bmod_eq_of_le_mul_two (by omega) (by omega)

theorem toNat_mul_zeroExtend (a b : Word) : (a.zeroExtend 64 * b.zeroExtend 64).toNat = a.toNat * b.toNat := by
  have hlt : a.toNat * b.toNat < 2 ^ 32 * 2 ^ 32 := Nat.mul_lt_mul'' a.isLt b.isLt
  rw [BitVec.toNat_mul, BitVec.toNat_setWidth_of_le (by decide), BitVec.toNat_setWidth_of_le (by decide)]
  exact Nat.mod_eq_of_lt hlt

/-- An instruction whose effect is to write a product leaves it in HI and LO. -/
theorem WritesHiLo.product {i : Instr} {effect : Snapshot → State → Out} (h : WritesHiLo i effect) (s : State) (p : Word)
    {d : Dword} (hf : ∀ t, effect (executing i s p) t = writeProduct d t) :
    ∃ t, runsTo i s p t ∧ t.hi ++ t.lo = d ∧ onlyHiLo s t p ∧ t.draws = s.draws := by
  obtain ⟨t, hrun, hhi, hlo, hdraws, honly⟩ := h.commits s p (d.extractLsb' 32 32) (d.extractLsb' 0 32) 0 (hf _)
  exact ⟨t, hrun, by rw [hhi, hlo, append_halves], honly, hdraws⟩

/-- Settles O8: the effect writes the halves of the 64-bit product. -/
theorem multiplyResults : Obligations.MultiplyResults := by
  intro s p rs rt
  obtain ⟨t, hrun, hd, hrest⟩ := WritesHiLo.product (i := .mult rs rt) ⟨rfl, rfl⟩ s p fun _ => rfl
  obtain ⟨u, hrun', hd', hrest'⟩ := WritesHiLo.product (i := .multu rs rt) ⟨rfl, rfl⟩ s p fun _ => rfl
  exact ⟨⟨t, hrun, hd ▸ toInt_mul_signExtend _ _, hrest⟩, ⟨u, hrun', hd' ▸ toNat_mul_zeroExtend _ _, hrest'⟩⟩

/-! ### Divide -/

theorem divSigned_eq_sdiv (a b : Word) : divSigned a b = a.sdiv b := by
  apply BitVec.eq_of_toInt_eq
  rw [divSigned, BitVec.toInt_ofInt, BitVec.toInt_sdiv]

/-- What DIV leaves in HI is the remainder with the sign of the dividend (R328). -/
theorem sub_divSigned_eq_srem (a b : Word) : a - divSigned a b * b = a.srem b := by
  have h : a.toInt.tmod b.toInt = a.toInt + -(a.toInt.tdiv b.toInt * b.toInt) := by
    rw [Int.tmod_def, Int.mul_comm, Int.sub_eq_add_neg]
  rw [← BitVec.ofInt_toInt (x := a.srem b), BitVec.toInt_srem, h, BitVec.ofInt_add, BitVec.ofInt_neg, BitVec.ofInt_mul,
    BitVec.ofInt_toInt, BitVec.ofInt_toInt, ← BitVec.sub_eq_add_neg]
  rfl

theorem divUndefined_iff (a b : Word) : divUndefined a b = true ↔ b = 0#32 ∨ a = 0x80000000#32 ∧ b = 0xFFFFFFFF#32 := by
  simp [divUndefined]

theorem divEffect_defined {x : Snapshot} (h : ¬(x.valB = 0#32 ∨ x.valA = 0x80000000#32 ∧ x.valB = 0xFFFFFFFF#32)) (s : State) :
    divEffect x s = .next (writeHiLo (x.valA.srem x.valB) (x.valA.sdiv x.valB) s) := by
  rw [divEffect, if_neg (mt (divUndefined_iff _ _).mp h), sub_divSigned_eq_srem, divSigned_eq_sdiv]

theorem divEffect_undefined {x : Snapshot} (h : x.valB = 0#32 ∨ x.valA = 0x80000000#32 ∧ x.valB = 0xFFFFFFFF#32) (s : State) :
    divEffect x s = drawHiLo s := if_pos ((divUndefined_iff _ _).mpr h)

/-- Settles O9: the quotient is `BitVec.sdiv` or the unsigned one, the remainder what is left of the dividend. -/
theorem divideResults : Obligations.DivideResults := by
  intro s p rs rt hnz
  refine ⟨fun hcorner => ?div, ?divu⟩
  case div =>
    obtain ⟨t, hrun, hhi, hlo, hdraws, honly⟩ :=
      WritesHiLo.commits (i := .div rs rt) ⟨rfl, rfl⟩ s p ((readGpr s rs).srem (readGpr s rt)) ((readGpr s rs).sdiv (readGpr s rt)) 0
        (divEffect_defined (not_or_intro hnz hcorner) _)
    exact ⟨t, hrun, hlo ▸ BitVec.toInt_sdiv_of_ne_or_ne _ _ (not_and_or.mp hcorner), hhi ▸ BitVec.toInt_srem _ _, honly, hdraws⟩
  case divu =>
    obtain ⟨t, hrun, hhi, hlo, hdraws, honly⟩ := 
      WritesHiLo.commits (i := .divu rs rt) ⟨rfl, rfl⟩ s p (readGpr s rs % readGpr s rt) (readGpr s rs / readGpr s rt) 0 (if_neg hnz)
    exact ⟨t, hrun, hlo ▸ BitVec.toNat_udiv, hhi ▸ BitVec.toNat_umod, honly, hdraws⟩

/-- Settles O10: in the corners the effect draws HI and LO. -/
theorem divideUndefined : Obligations.DivideUndefined := by
  intro s p rs rt
  simp only [List.forall_mem_cons]
  refine ⟨fun hcorner => ?div, fun hz => ?divu, nofun⟩
  case div =>
    exact WritesHiLo.commits (i := .div rs rt) ⟨rfl, rfl⟩ s p _ _ 2 (divEffect_undefined hcorner _)
  case divu => exact WritesHiLo.commits (i := .divu rs rt) ⟨rfl, rfl⟩ s p _ _ 2 (if_pos hz)

/-! ### Moves -/

/-- Settles O11: MFHI and MFLO compute their result from HI and LO, MTHI and MTLO write one of them and keep the other. -/
theorem hiLoMoves : Obligations.HiLoMoves := by
  intro s p rs rd
  refine ⟨fun hn => ?_, ?mthi, ?mtlo⟩
  · simp only [List.forall_mem_cons]
    exact ⟨Computes.commits ⟨rfl, rfl⟩ hn fun _ => rfl, Computes.commits ⟨rfl, rfl⟩ hn fun _ => rfl, nofun⟩
  case mthi =>
    obtain ⟨t, hrun, hhi, hlo, hdraws, honly⟩ := WritesHiLo.commits (i := .mthi rs) ⟨rfl, rfl⟩ s p (readGpr s rs) s.lo 0 rfl
    exact ⟨t, hrun, hhi, hlo, honly, hdraws⟩
  case mtlo =>
    obtain ⟨t, hrun, hhi, hlo, hdraws, honly⟩ := WritesHiLo.commits (i := .mtlo rs) ⟨rfl, rfl⟩ s p s.hi (readGpr s rs) 0 rfl
    exact ⟨t, hrun, hlo, hhi, honly, hdraws⟩

end Sys2Proof.Machine
end

section
/-! O48. Every stage's work answers a next state, but for the forms that R427 and R428 of spec/43_system.md refuse. -/

namespace Sys2Proof.Machine

/-- The outcome is a next state. -/
def Answers (o : Out) : Prop := ∃ t, o = .next t

theorem memStep_answers (isRfe : Bool) (work : State → MemWork) (s : State) : Answers (memStep isRfe work s) := by
  unfold memStep
  split <;> exact ⟨_, rfl⟩

theorem wbStage_answers (s : State) : Answers (wbStage s) := by
  rcases wbStage_cases s with ⟨r, -, e⟩ | ⟨-, e⟩ <;> exact ⟨_, e⟩

/-- EX answers if the effect does wherever the guard lets it run. -/
theorem exStage_answers {compute : State → Snapshot → Snapshot} {effect : Snapshot → State → Out} {s : State}
    (he : exGuard (s.setEx (compute s (resolved s))) = true → ∀ x u, Answers (effect x u)) :
    Answers (exStage compute effect s) := by
  rcases exStage_cases compute effect s with ⟨hg, e⟩ | ⟨-, e⟩ <;> rw [e]
  · exact he hg _ _
  · exact ⟨_, rfl⟩

theorem Answers.byStage {s : State} {dec ex mem wb : State → Out} (hd : Answers (dec s))
    (he : s.active = .execute → Answers (ex s)) (hm : Answers (mem s)) (hw : Answers (wb s)) :
    Answers (Machine.byStage s dec ex mem wb) := by
  unfold Machine.byStage
  split
  exacts [hd, he ‹_›, hm, hw]

theorem divEffect_answers (x : Snapshot) (s : State) : Answers (divEffect x s) := by
  unfold divEffect
  split <;> exact ⟨_, rfl⟩

theorem divuEffect_answers (x : Snapshot) (s : State) : Answers (divuEffect x s) := by
  unfold divuEffect
  split <;> exact ⟨_, rfl⟩

/-- MFC0 answers for every number but those of the TLB abstraction (R425, R427). -/
theorem mfc0Effect_answers {rt : Reg} {n : Nat} (h : refusedForm (.mfc0 rt n) = false) (x : Snapshot) (s : State) :
    Answers (mfc0Effect n x s) := by
  simp only [refusedForm, Bool.or_eq_false_iff, beq_eq_false_iff_ne] at h
  unfold mfc0Effect
  split
  · exact ⟨_, rfl⟩
  · exact ⟨_, rfl⟩
  · rename_i ht
    grind [cp0Read]

/-- So does MTC0 (R426, R427). -/
theorem mtc0Effect_answers {rt : Reg} {n : Nat} (h : refusedForm (.mtc0 rt n) = false) (x : Snapshot) (s : State) :
    Answers (mtc0Effect n x s) := by
  simp only [refusedForm, Bool.or_eq_false_iff, beq_eq_false_iff_ne] at h
  unfold mtc0Effect
  split
  · exact ⟨_, rfl⟩
  · exact ⟨_, rfl⟩
  · rename_i ht
    grind [cp0Write]

/-- Settles O48: ID, MEM and WB always answer, EX does where its effect does; an instruction whose effect may be a
refusal computes nothing, so that the guard of its effect is the guard of the state. -/
theorem execAnswersNext : Obligations.ExecAnswersNext := by
  intro i s h
  cases i <;>
    refine Answers.byStage ⟨_, rfl⟩ (fun ha => exStage_answers fun hg x u => ?_) (memStep_answers _ _ s) (wbStage_answers s)
  case div => exact divEffect_answers x u
  case divu => exact divuEffect_answers x u
  case mfc0 => exact mfc0Effect_answers (h ha hg) x u
  case mtc0 => exact mtc0Effect_answers (h ha hg) x u
  case tlbr | tlbwi | tlbwr | tlbp | cop1 | cop2 | cop3 | lwc1 | lwc2 | lwc3 | swc1 | swc2 | swc3 => exact nomatch h ha hg
  all_goals exact ⟨_, rfl⟩

end Sys2Proof.Machine
end

section
/-! O47. Forwarding (spec/70_reset_and_hazards.md R533 to R537): the value an operand in flight has when it is used, and
two instructions one right behind the other through the stages. -/

namespace Sys2Proof.Machine

/-! ### What each phase does with the slots -/

/-- An instruction with a register as first source has no shift amount in its place (R210). -/
theorem useShamt_of_src1 {i : Instr} {r : Reg} (h : (decodeOut i).src1 = .reg r) : (decodeOut i).useShamt = false := by
  cases i
  case sll | srl | sra => exact nomatch h
  all_goals rfl

theorem operandA_of_src1 {p : Pipeline} {i : Instr} {r : Reg} (h : (decodeOut i).src1 = .reg r) :
    operandA p (decodeOut i) = forwardTag p r := by
  rw [operandA, useShamt_of_src1 h, h]
  rfl

theorem operandB_of_src2 {p : Pipeline} {d : DecodeOut} {r : Reg} (h : d.src2 = .reg r) : operandB p d = forwardTag p r := by
  rw [operandB, h]
  rfl

theorem Snapshot.destReg_eq_some {x : Snapshot} {r : Reg} : x.destReg = some r ↔ x.bubble = false ∧ x.dest.destReg = some r := by
  cases hb : x.bubble <;> simp [Snapshot.destReg, hb]

/-- The commit of a slot writes the register the slot writes. -/
theorem readGpr_commit_slot {x : Snapshot} (hb : x.bubble = false) (s : State) (r : Reg) :
    readGpr (commit s x) r = if x.destReg = some r then x.result else readGpr s r := by
  have hslot : x.destReg = x.dest.destReg := by simp [Snapshot.destReg, hb]
  rw [readGpr_commit, hslot]
  cases hd : x.dest.destReg with
  | none => rfl
  | some q =>
    by_cases hq : r = q
    · simp [hq, destReg_ne_zero hd]
    · simp [hq, Ne.symm hq]

/-- WB of a slot without records: its destination gets its result (R548). -/
theorem wbPhase_commits {s w : State} (he : s.pipe.wb.exc = []) (h : wbPhase s = .next w) :
    w.pipe = s.pipe ∧
      ∀ r, readGpr w r = if s.pipe.wb.destReg = some r then s.pipe.wb.result else readGpr s r := by
  rcases runSlot_writeback (s := { s with active := .writeback }) rfl he h with ⟨hb, rfl⟩ | ⟨hb, rfl⟩
  · have hnone : s.pipe.wb.destReg = none := if_pos hb
    exact ⟨rfl, fun r => by rw [hnone]; rfl⟩
  · exact ⟨commit_pipe _ _, readGpr_commit_slot hb _⟩

/-- MEM keeps the registers, the younger slot and which register its own slot writes. -/
theorem memPhase_keeps {s t : State} (h : memPhase s = .next t) :
    t.gpr = s.gpr ∧ t.pipe.ex = s.pipe.ex ∧ t.pipe.mem.destReg = s.pipe.mem.destReg := by
  have f := runSlot_memory (s := { s with active := .memory, stall := false }) rfl h
  obtain ⟨-, -, hbubble, hdest, -⟩ := f.slotMem
  exact ⟨f.gpr, f.slotEx, by rw [Snapshot.destReg, Snapshot.destReg, hbubble, hdest]⟩

/-- The forwarding mux gives the youngest older writer's result (R536): that of the slot now in MEM, or what WB has
committed by then. -/
theorem operandValue_newest {s x : State} {r : Reg} (hmem : x.pipe.mem.destReg = s.pipe.ex.destReg)
    (hgpr : readGpr x r = if s.pipe.mem.destReg = some r then s.pipe.mem.result else readGpr s r) :
    operandValue x (forwardTag s.pipe r) = if r = 0 then 0#32
      else if s.pipe.ex.destReg = some r then x.pipe.mem.result
      else if s.pipe.mem.destReg = some r then s.pipe.mem.result
      else readGpr s r := by
  unfold forwardTag
  by_cases h0 : r = 0
  · simp [h0, operandValue]
  · by_cases hex : s.pipe.ex.destReg = some r
    · simp [h0, hex, operandValue, hmem]
    · by_cases hm : s.pipe.mem.destReg = some r
      · simp [h0, hex, hm, operandValue, hgpr]
      · by_cases hwb : s.pipe.wb.destReg = some r <;> simp [h0, hex, hm, hwb, operandValue, hgpr]

/-! ### Two instructions, one right behind the other -/

/-- A slot that holds the well-formed instruction `i` and no record. -/
structure Holds (x : Snapshot) (i : Instr) : Prop where
  bubble : x.bubble = false
  decode : decode x.instr = .ok i
  exc    : x.exc = []

theorem Holds.runSlot {x : Snapshot} {i : Instr} (h : Holds x i) (s : State) : runSlot x s = exec i s :=
  runSlot_instr h.bubble h.decode s

/-- `y` in EX behind `x` in MEM. -/
def exMem (s : State) (y x : Snapshot) (a : Stage) : State :=
  { s with pipe := { ex := y, mem := x }, active := a, stall := false }

/-- `y` in MEM behind `x` in WB. -/
def memWb (s : State) (y x : Snapshot) : State :=
  { s with pipe := { mem := y, wb := x }, active := .memory, stall := false }

/-- The snapshot that `j` at `q` leaves ID with, one behind `x` in EX (R533). -/
def follower (x : Snapshot) (j : Instr) (q : Word) : Snapshot :=
  { idSnapshot q (encode j) (decodeOut j) [] with
    opA := operandA { ex := x } (decodeOut j), opB := operandB { ex := x } (decodeOut j) }

/-- `s` after the load uses of `j` behind `x` are counted, one for each source (R535). -/
def State.counting (s : State) (x : Snapshot) (j : Instr) : State :=
  { s with
    loadUseEvents := s.loadUseEvents + loadUse { ex := x } (operandA { ex := x } (decodeOut j)) +
      loadUse { ex := x } (operandB { ex := x } (decodeOut j)) }

/-- The first steps of `runPair`, to the MEM step of the elder. -/
def runPairFront (v w : Word) (s : State) (p : Word) : Out :=
  andThen (idPhase (issue s p v)) fun a =>
  andThen (exPhase (behind (p + 4#32) w (advance a))) fun b =>
  andThen (idPhase b) fun c => memPhase (advance c)

/-- `i` at `p`, alone but for what comes behind it, passes EX and MEM without a stall and leaves `s'` with `x` in MEM,
whatever `j` follows it, but for the load uses counted for `j`. -/
structure Leads (i : Instr) (s : State) (p : Word) (s' : State) (x : Snapshot) : Prop where
  holds : Holds x i
  front : ∀ j : Instr, j.wellFormed = true → copNeeded j = none →
    runPairFront (encode i) (encode j) s p = .next (exMem (s'.counting x j) (follower x j (p + 4#32)) x .memory)

/-- ID of an instruction that no check of coprocessors stops. -/
theorem idPhase_instr {s : State} {i : Instr} (hb : s.pipe.dec.bubble = false) (hi : decode s.pipe.dec.instr = .ok i)
    (hc : copNeeded i = none) : idPhase s = decodeStep (decodeOut i) [] { s with active := .decode } := by
  refine (runSlot_instr hb hi _).trans ((exec_decode i rfl).trans ?_)
  rw [idStage, hc]
  rfl

theorem idPhase_issue {i : Instr} (hi : i.wellFormed = true) (hc : copNeeded i = none) (s : State) (p : Word) :
    ∃ a, idPhase (issue s p (encode i)) = .next a ∧
      { advance a with active := .execute } = atEx s (idSnapshot p (encode i) (decodeOut i) []) := by
  obtain ⟨a, ha, hx⟩ := decodeStep_alone (decodeOut i) [] s p (encode i)
  exact ⟨a, (idPhase_instr (s := issue s p (encode i)) rfl (roundTrip i hi) hc).trans ha, hx⟩

/-- ID of the younger instruction, its elder in EX. -/
theorem idPhase_behind {j : Instr} (hj : j.wellFormed = true) (hc : copNeeded j = none) (s : State) (x : Snapshot) (q : Word) :
    ∃ c, idPhase (behind q (encode j) (atEx s x)) = .next c ∧
      { advance c with active := .memory, stall := false } = exMem (s.counting x j) (follower x j q) x .memory := by
  refine ⟨_, idPhase_instr (s := behind q (encode j) (atEx s x)) rfl (roundTrip j hj) hc, ?_⟩
  rfl

/-! ### MEM among other slots, no interrupt requested -/

theorem intCond_congr {s t : State} (hs : t.sr = s.sr) (hc : t.cause = s.cause) (he : t.env = s.env) : intCond t = intCond s := by
  rw [intCond, intCond, State.interruptsEnabled, State.interruptsEnabled, readCause_congr hc he, hs]

theorem memStep_uninterrupted {work : State → MemWork} {s t : State} (hi : intCond s = false) (hw : work s = .done t)
    (ht : t.intShadow = s.intShadow) : memStep false work s = .next { t with stall := false, intShadow := false } := by
  rw [memStep, sampleInterrupt_none s (.inr (.inr hi)), hw]
  cases hs : s.intShadow <;> simp [ht, hs]

theorem memPass_uninterrupted {s : State} (hi : intCond s = false) :
    memPass s = .next { s with stall := false, intShadow := false } := memStep_uninterrupted hi rfl rfl

/-- An uncached load of memory in MEM. -/
theorem IsLoad.memory {i : Instr} {base rt : Reg} {off : BitVec 16} {place : Word → Word} {w : Width}
    {extend : Endian → Word → Word → Word → Word} (h : IsLoad i base rt off place w extend) {s : State} {pa : Word}
    (hact : s.active = .memory) (hi : intCond s = false) (he : s.pipe.mem.exc = []) (ha : aligned (place s.pipe.mem.ea) w = true)
    (hr : reaches s (place s.pipe.mem.ea) .load pa false) (hp : aligned pa w = true) (hd : isDevice s.cfg pa = false) :
    exec i s = .next { s.setMem { s.pipe.mem with
      result := extend s.cfg.endian s.pipe.mem.ea s.pipe.mem.storeData (memoryValue s pa w) } with
        stall := false, intShadow := false } := by
  have hread : memRead s (place s.pipe.mem.ea) s.pipe.mem.ea w = .done (memoryValue s pa w) s := by
    rw [memRead_reaches he ha hr, readAt_uncached hp, mapperFetch_memory hd]
  rw [h.exec]
  exact (byStage_memory hact _ _ _ _).trans (memStep_uninterrupted hi (loadWork_done hread) rfl)

/-! ### The elder of a pair -/

/-- What the EX and MEM steps of `i` answer makes it lead. -/
theorem Leads.of_steps {i : Instr} {s u s' : State} {p : Word} {x x' : Snapshot} (hi : i.wellFormed = true)
    (hc : copNeeded i = none) (hx : Holds x i) (hx' : Holds x' i)
    (hex : ∀ q w, exec i (behind q w (atEx s (idSnapshot p (encode i) (decodeOut i) []))) = .next (behind q w (atEx u x)))
    (hmem : ∀ j q, exec i (exMem (u.counting x j) (follower x j q) x .memory) =
      .next (exMem (s'.counting x' j) (follower x' j q) x' .memory)) : Leads i s p s' x' where
  holds := hx'
  front j hj hcj := by
    obtain ⟨a, ha, ha'⟩ := idPhase_issue hi hc s p
    have hb : exPhase (behind (p + 4#32) (encode j) (advance a)) = .next (behind (p + 4#32) (encode j) (atEx u x)) := by
      have h0 : { behind (p + 4#32) (encode j) (advance a) with active := .execute } =
          behind (p + 4#32) (encode j) (atEx s (idSnapshot p (encode i) (decodeOut i) [])) := by
        rw [← ha']
        rfl
      have hslot : (behind (p + 4#32) (encode j) (advance a)).pipe.ex = idSnapshot p (encode i) (decodeOut i) [] :=
        congrArg (·.pipe.ex) ha'
      have hid : Holds (idSnapshot p (encode i) (decodeOut i) []) i := ⟨rfl, roundTrip i hi, rfl⟩
      rw [exPhase, h0, ← hex, hslot, hid.runSlot]
    obtain ⟨c, hcd, hc'⟩ := idPhase_behind hj hcj u x (p + 4#32)
    have hd : memPhase (advance c) = .next (exMem (s'.counting x' j) (follower x' j (p + 4#32)) x' .memory) := by
      rw [memPhase, hc', ← hmem]
      have hslot : (advance c).pipe.mem = x := congrArg (·.pipe.mem) hc'
      rw [hslot, hx.runSlot]
    rw [runPairFront, ha, andThen_next, hb, andThen_next, hcd, andThen_next, hd]

theorem exStage_noEffect (compute : State → Snapshot → Snapshot) (s : State) :
    exStage compute noEffect s = .next (s.setEx (compute s (resolved s))) := by
  rcases exStage_cases compute noEffect s with ⟨-, e⟩ | ⟨-, e⟩ <;> exact e

/-- ADDU at `p` after MEM. -/
def addedSnapshot (s : State) (p : Word) (rs rt rd : Reg) : Snapshot :=
  { executing (.addu rs rt rd) s p with result := readGpr s rs + readGpr s rt }

/-- LW at `p` after MEM, its word from `pa`. -/
def loadedSnapshot (s : State) (p pa : Word) (base rt : Reg) (off : BitVec 16) : Snapshot :=
  { accessing (.lw base rt off) s p with result := memoryValue s pa .word }

section
variable {s : State} (hi : intCond s = false) (p : Word)
include hi

theorem leads_addu (rs rt rd : Reg) : Leads (.addu rs rt rd) s p { s with intShadow := false } (addedSnapshot s p rs rt rd) := by
  have holds : Holds (addedSnapshot s p rs rt rd) (.addu rs rt rd) := ⟨rfl, roundTrip (.addu rs rt rd) rfl, rfl⟩
  exact .of_steps (u := s) rfl rfl holds holds (fun _ _ => rfl) fun _ _ => memPass_uninterrupted hi

theorem leads_mult (rs rt : Reg) : Leads (.mult rs rt) s p
    { s with
      intShadow := false
      hi := ((readGpr s rs).signExtend 64 * (readGpr s rt).signExtend 64).extractLsb' 32 32
      lo := ((readGpr s rs).signExtend 64 * (readGpr s rt).signExtend 64).extractLsb' 0 32 }
    { executing (.mult rs rt) s p with exSideEffect := true } := by
  have holds : Holds { executing (.mult rs rt) s p with exSideEffect := true } (.mult rs rt) :=
    ⟨rfl, roundTrip (.mult rs rt) rfl, rfl⟩
  exact .of_steps (u := { s with
      hi := ((readGpr s rs).signExtend 64 * (readGpr s rt).signExtend 64).extractLsb' 32 32
      lo := ((readGpr s rs).signExtend 64 * (readGpr s rt).signExtend 64).extractLsb' 0 32 }) rfl rfl holds holds
    (fun _ _ => rfl) fun _ _ => memPass_uninterrupted hi

/-- A load of an aligned word of memory. -/
theorem leads_lw {base rt : Reg} {off : BitVec 16} {pa : Word} (hr : reaches s (readGpr s base + off.signExtend 32) .load pa false)
    (ha : aligned (readGpr s base + off.signExtend 32) .word = true) (hp : aligned pa .word = true)
    (hd : isDevice s.cfg pa = false) : Leads (.lw base rt off) s p { s with intShadow := false }
      (loadedSnapshot s p pa base rt off) :=
  .of_steps (u := s) (x := accessing (.lw base rt off) s p) rfl rfl ⟨rfl, roundTrip (.lw base rt off) rfl, rfl⟩
    ⟨rfl, roundTrip (.lw base rt off) rfl, rfl⟩ (fun _ _ => rfl)
    fun j q => (isLoad_lw base rt off).memory
      (s := exMem (s.counting (accessing (.lw base rt off) s p) j) (follower (accessing (.lw base rt off) s p) j q)
        (accessing (.lw base rt off) s p) .memory) rfl hi rfl ha hr hp hd

end

/-! ### The younger of a pair -/

theorem andThen_assoc (o : Out) (k l : State → Out) : andThen (andThen o k) l = andThen o fun s => andThen (k s) l := by
  cases o <;> rfl

/-- The last steps of `runPair`, from the EX step of the younger. -/
def runPairBack (d : State) : Out :=
  if d.stall then .next d else
  andThen (exPhase d) fun e =>
  andThen (wbPhase (advance e)) fun f =>
  andThen (memPhase f) fun g =>
  if g.stall then .next g else wbPhase (advance g)

theorem runPair_eq (v w : Word) (s : State) (p : Word) : runPair v w s p = andThen (runPairFront v w s p) runPairBack := by
  rw [runPairFront, andThen_assoc]
  simp only [andThen_assoc]
  rfl

theorem wbStage_commits {s : State} (he : s.pipe.wb.exc = []) : wbStage s = .next (commit s s.pipe.wb) := by
  rcases wbStage_cases s with ⟨r, hr, -⟩ | ⟨-, e⟩
  · rw [he] at hr
    cases hr
  · exact e

/-- WB of a slot that holds an instruction and no record. -/
theorem Holds.wbPhase {s : State} {x : Snapshot} {i : Instr} (h : Holds x i) (hs : s.pipe.wb = x) :
    wbPhase s = .next (commit { s with active := .writeback } x) := by
  subst hs
  exact (h.runSlot _).trans ((exec_writeback i rfl).trans (wbStage_commits h.exc))

/-- A commit neither reads nor writes the slots and the cycle's marks. -/
theorem commit_marked (s : State) (x : Snapshot) (q : Pipeline) (a b : Stage) (c d : Bool) :
    { commit { s with pipe := q, active := a, stall := c } x with active := b, stall := d } =
      { commit s x with pipe := q, active := b, stall := d } := by
  unfold commit writeGpr
  split
  · split <;> rfl
  · rfl

/-- From the EX step of the younger on: what its EX and MEM steps answer is committed after the elder. -/
theorem runPairBack_commits {i j : Instr} {s u v : State} {x y y' y'' : Snapshot} (hx : Holds x i) (hy : Holds y j)
    (hy' : Holds y' j) (hy'' : Holds y'' j) (hex : exec j (exMem s y x .execute) = .next (exMem u y' x .execute))
    (hmem : exec j (memWb (commit u x) y' x) = .next (memWb v y'' x)) :
    runPairBack (exMem s y x .memory) = .next (commit (atWb v y'') y'') := by
  have he : exPhase (exMem s y x .memory) = .next (exMem u y' x .execute) := (hy.runSlot _).trans hex
  have hf := hx.wbPhase (s := advance (exMem u y' x .execute)) rfl
  have hg : memPhase (commit { advance (exMem u y' x .execute) with active := .writeback } x) = .next (memWb v y'' x) := by
    have hslot : (commit { advance (exMem u y' x .execute) with active := .writeback } x).pipe.mem = y' :=
      congrArg (·.mem) (commit_pipe _ _)
    rw [memPhase, hslot, hy'.runSlot, ← hmem]
    exact congrArg (exec j) (commit_marked u x { mem := y', wb := x } .writeback .memory false false)
  have hd : ¬ (exMem s y x .memory).stall = true := Bool.false_ne_true
  have hn : ¬ (memWb v y'' x).stall = true := Bool.false_ne_true
  rw [runPairBack, if_neg hd, he, andThen_next, hf, andThen_next, hg, andThen_next, if_neg hn]
  exact hy''.wbPhase (s := advance (memWb v y'' x)) rfl

/-- The younger `j` in EX, its operand values fed by `x` in MEM (R536). -/
def fed (s : State) (x : Snapshot) (j : Instr) (q : Word) : Snapshot := resolved (exMem s (follower x j q) x .execute)

section
variable {x : Snapshot} {d : Reg} (hx : x.destReg = some d)
include hx

/-- Behind one writer in flight, only its register is forwarded (R533). -/
theorem forwardTag_follower (r : Reg) :
    forwardTag { ex := x } r = if r = d then .forwarded .execute r else .architectural r := by
  have h0 : d ≠ 0 := destReg_ne_zero (Snapshot.destReg_eq_some.mp hx).2
  have hbubble : Snapshot.destReg {} = none := rfl
  by_cases hr : r = d
  · subst hr
    simp [forwardTag, h0, hx]
  · by_cases hz : r = 0
    · subst hz
      simp [forwardTag, hr]
    · simp [forwardTag, hz, hx, hr, Ne.symm hr, hbubble]

theorem operandValue_follower (s : State) (y : Snapshot) (r : Reg) :
    operandValue (exMem s y x .execute) (forwardTag { ex := x } r) = if r = d then x.result else readGpr s r := by
  rw [forwardTag_follower hx]
  by_cases hr : r = d
  · subst hr
    simp [operandValue, exMem, hx]
  · rw [if_neg hr, if_neg hr]
    rfl

theorem fed_valA {j : Instr} {r : Reg} (h : (decodeOut j).src1 = .reg r) (s : State) (q : Word) :
    (fed s x j q).valA = if r = d then x.result else readGpr s r := by
  rw [← operandValue_follower hx s (follower x j q), ← operandA_of_src1 h]
  rfl

theorem fed_valB {j : Instr} {r : Reg} (h : (decodeOut j).src2 = .reg r) (s : State) (q : Word) :
    (fed s x j q).valB = if r = d then x.result else readGpr s r := by
  rw [← operandValue_follower hx s (follower x j q), ← operandB_of_src2 h]
  rfl

/-- A load in EX is counted once for each source that reads its register (R535). -/
theorem loadUse_load (h : x.memRead = true) (r : Reg) : loadUse { ex := x } (forwardTag { ex := x } r) = if r = d then 1 else 0 := by
  rw [forwardTag_follower hx]
  by_cases hr : r = d <;> simp [hr, loadUse, h]

end

theorem loadUse_noLoad {x : Snapshot} (h : x.memRead = false) (o : OperandSource) : loadUse { ex := x } o = 0 := by
  cases o with
  | forwarded st r => cases st <;> simp [loadUse, h]
  | _ => rfl

/-- An uncached store of one piece to memory in MEM. -/
theorem IsStore.memory {i : Instr} {base rt : Reg} {off : BitVec 16} {w : Width}
    (h : IsStore i base rt off fun _ a r => [{ va := a, width := w, value := r }]) {s : State} {pa : Word}
    (hact : s.active = .memory) (hi : intCond s = false) (he : s.pipe.mem.exc = []) (ha : aligned s.pipe.mem.ea w = true)
    (hr : reaches s s.pipe.mem.ea .store pa false) (hp : aligned pa w = true) (hd : isDevice s.cfg pa = false) :
    exec i s = .next { s with
      mem := s.mem.writeBytes pa (bytesOfValue s.cfg.endian w.bytes s.pipe.mem.storeData)
      stall := false
      intShadow := false } := by
  have hwrite : memWrite s s.pipe.mem.ea [{ va := s.pipe.mem.ea, width := w, value := s.pipe.mem.storeData }] =
      .done 0#32 { s with mem := s.mem.writeBytes pa (bytesOfValue s.cfg.endian w.bytes s.pipe.mem.storeData) } := by
    rw [memWrite_reaches he (storeRecs_single ha hr), writeAt_ok (storeErrors_single hr (.inr hp)), storeTarget_single hr,
      ← mapperStore_memory hd w _ .dcache]
    rfl
  have hwork : storeWork (fun t => memWrite t t.pipe.mem.ea [{ va := t.pipe.mem.ea, width := w, value := t.pipe.mem.storeData }]) s =
      .done { s with mem := s.mem.writeBytes pa (bytesOfValue s.cfg.endian w.bytes s.pipe.mem.storeData) } :=
    storeWork_done hwrite
  rw [h.exec]
  exact (byStage_memory hact _ _ _ _).trans (memStep_uninterrupted hi hwork rfl)

/-- Bytes stored from an address up are the cells stored in order. -/
theorem Memory.read_writeBytes_cells (bs : List Byte) (a : Nat) : ∀ (m : Memory) (pa : Word),
    Memory.read (m.writeBytes pa bs) a = afterStores (cellsFrom pa bs) a (Memory.read m a) := by
  induction bs with
  | nil => exact fun _ _ => rfl
  | cons b bs ih =>
    intro m pa
    rw [Memory.writeBytes, ih, Memory.read_write]
    rfl

section
variable {i j : Instr} {s s' : State} {p : Word} {x : Snapshot} (h : Leads i s p s' x) (hj : j.wellFormed = true)
  (hc : copNeeded j = none)
include h hj hc

/-- The pair, from what the younger's EX and MEM steps answer. -/
theorem Leads.pair {u v : State} {y y' : Snapshot} (hy : Holds y j) (hy' : Holds y' j)
    (hex : exec j (exMem (s'.counting x j) (follower x j (p + 4#32)) x .execute) = .next (exMem u y x .execute))
    (hmem : exec j (memWb (commit u x) y x) = .next (memWb v y' x)) :
    runPair (encode i) (encode j) s p = .next (commit (atWb v y') y') := by
  rw [runPair_eq, h.front j hj hc, andThen_next]
  exact runPairBack_commits h.holds ⟨rfl, roundTrip j hj, rfl⟩ hy hy' hex hmem

/-- A younger that computes a register. -/
theorem Leads.computes {rd : Reg} {compute : State → Snapshot → Snapshot} (hcomp : Computes j rd compute)
    (hi : intCond s' = false) {v : Word}
    (hv : compute (exMem (s'.counting x j) (follower x j (p + 4#32)) x .execute) (fed s' x j (p + 4#32)) =
      { fed s' x j (p + 4#32) with result := v }) :
    ∃ t, runPair (encode i) (encode j) s p = .next t ∧ gets t rd v ∧ sameGprBut rd (commit s' x) t ∧
      t.loadUseEvents = (s'.counting x j).loadUseEvents := by
  let y : Snapshot := { fed s' x j (p + 4#32) with result := v }
  have hy : Holds y j := ⟨rfl, roundTrip j hj, rfl⟩
  obtain ⟨hgets, hbut, -, -, -, -, ⟨-, hload, -⟩, -⟩ := commit_onlyGpr (commit (s'.counting x j) x) (y := y) hcomp.dest
  refine ⟨_, h.pair hj hc hy hy (u := s'.counting x j) ?_ ?_, hgets, fun q hq => (hbut q hq).trans ?_,
    hload.trans (commit_loadUseEvents _ _)⟩
  · rw [hcomp.exec]
    have hex := exStage_noEffect compute (exMem (s'.counting x j) (follower x j (p + 4#32)) x .execute)
    have hv : compute _ (resolved (exMem (s'.counting x j) (follower x j (p + 4#32)) x .execute)) = y := hv
    rw [hv] at hex
    exact hex
  · rw [hcomp.exec]
    exact memPass_uninterrupted (s := memWb (commit (s'.counting x j) x) y x)
      ((intCond_congr (commit_sr _ _) (commit_cause _ _) (commit_env _ _)).trans hi)
  · rw [readGpr_commit, readGpr_commit]
    rfl

/-- A younger that transfers control. -/
theorem Leads.transfers {taken : Snapshot → Bool} {target : Snapshot → Word}
    (hexec : exec j = stages (decodeOut j) none noCompute (transferIf taken target) memPass) (hi : intCond s' = false) :
    ∃ t, runPair (encode i) (encode j) s p = .next t ∧
      t.pc = if taken (fed s' x j (p + 4#32)) then target (fed s' x j (p + 4#32)) else s'.pc := by
  let y := fed s' x j (p + 4#32)
  let u : State := { s'.counting x j with pc := if taken y then target y else s'.pc }
  have hy : Holds y j := ⟨rfl, roundTrip j hj, rfl⟩
  refine ⟨_, h.pair hj hc hy hy (u := u) (v := { commit u x with intShadow := false }) ?_ ?_,
    (commit_pc _ _).trans (commit_pc u x)⟩
  · rw [hexec]
    have hguard : exGuard (exMem (s'.counting x j) y x .execute) = true := by
      simp [exGuard, exMem, h.holds.exc, hy.exc]
    have heffect : transferIf taken target y (exMem (s'.counting x j) y x .execute) = .next (exMem u y x .execute) := by
      unfold transferIf
      cases ht : taken y <;> simp [u, ht] <;> rfl
    rcases exStage_cases noCompute (transferIf taken target) (exMem (s'.counting x j) (follower x j (p + 4#32)) x .execute)
      with ⟨-, e⟩ | ⟨e, -⟩
    · exact e.trans heffect
    · exact absurd hguard (Bool.eq_false_iff.mp e)
  · rw [hexec]
    exact memPass_uninterrupted (s := memWb (commit u x) y x)
      ((intCond_congr (commit_sr _ _) (commit_cause _ _) (commit_env _ _)).trans hi)

/-- A younger that loads from memory around DCACHE. -/
theorem Leads.loads {base rt : Reg} {off : BitVec 16} {place : Word → Word} {w : Width}
    {extend : Endian → Word → Word → Word → Word} (hload : IsLoad j base rt off place w extend) (hi : intCond s' = false)
    {ea pa : Word} (hea : (fed s' x j (p + 4#32)).valA + (decodeOut j).imm = ea) (ha : aligned (place ea) w = true)
    (hr : reaches s' (place ea) .load pa false) (hp : aligned pa w = true) (hd : isDevice s'.cfg pa = false) :
    ∃ t, runPair (encode i) (encode j) s p = .next t ∧
      gets t rt (extend s'.cfg.endian ea (fed s' x j (p + 4#32)).valB (memoryValue s' pa w)) := by
  subst hea
  let u := s'.counting x j
  let y := addressOf s' (fed s' x j (p + 4#32))
  have hcfg : (commit u x).cfg = s'.cfg := commit_cfg _ _
  have hvalue : memoryValue (memWb (commit u x) y x) pa w = memoryValue s' pa w := by
    show valueOfBytes (commit u x).cfg.endian ((commit u x).mem.readBytes pa w.bytes) = _
    rw [hcfg, commit_mem]
    rfl
  let y' : Snapshot := { y with result := extend s'.cfg.endian y.ea y.storeData (memoryValue s' pa w) }
  obtain ⟨hgets, -⟩ := commit_onlyGpr (commit u x) (y := y') hload.dest
  refine ⟨_, h.pair hj hc ⟨rfl, roundTrip j hj, rfl⟩ ⟨rfl, roundTrip j hj, rfl⟩ (u := u)
    (v := { commit u x with intShadow := false }) (y := y) (y' := y') ?_ ?_, hgets⟩
  · rw [hload.exec]
    exact exStage_noEffect addressOf _
  · have hm := hload.memory (s := memWb (commit u x) y x) rfl
      ((intCond_congr (commit_sr _ _) (commit_cause _ _) (commit_env _ _)).trans hi) rfl ha
      (reaches_congr hcfg (commit_sr _ _) hr) hp (hcfg ▸ hd)
    have hcfg : (memWb (commit u x) y x).cfg = s'.cfg := hcfg
    rw [hvalue, hcfg] at hm
    exact hm

/-- A younger that stores one piece to memory around DCACHE. -/
theorem Leads.stores {base rt : Reg} {off : BitVec 16} {w : Width}
    (hstore : IsStore j base rt off fun _ a r => [{ va := a, width := w, value := r }]) (hi : intCond s' = false)
    {ea pa : Word} (hea : (fed s' x j (p + 4#32)).valA + (decodeOut j).imm = ea) (ha : aligned ea w = true)
    (hr : reaches s' ea .store pa false) (hp : aligned pa w = true) (hd : isDevice s'.cfg pa = false) :
    ∃ t, runPair (encode i) (encode j) s p = .next t ∧
      stored s' t (cellsFrom pa (bytesOfValue s'.cfg.endian w.bytes (fed s' x j (p + 4#32)).valB)) := by
  subst hea
  let u := s'.counting x j
  let y := addressOf s' (fed s' x j (p + 4#32))
  have hcfg : (commit u x).cfg = s'.cfg := commit_cfg _ _
  have hy : Holds y j := ⟨rfl, roundTrip j hj, rfl⟩
  have hm := hstore.memory (s := memWb (commit u x) y x) rfl
    ((intCond_congr (commit_sr _ _) (commit_cause _ _) (commit_env _ _)).trans hi) rfl ha
    (reaches_congr hcfg (commit_sr _ _) hr) hp (hcfg ▸ hd)
  refine ⟨_, h.pair hj hc hy hy (u := u) (v := { commit u x with
    intShadow := false
    mem := (commit u x).mem.writeBytes pa (bytesOfValue (commit u x).cfg.endian w.bytes y.storeData) }) ?_ hm, fun a => ?_⟩
  · rw [hstore.exec]
    exact exStage_noEffect addressOf _
  · rw [commit_mem, ← Memory.read_writeBytes_cells]
    show Memory.read ((commit u x).mem.writeBytes pa (bytesOfValue (commit u x).cfg.endian w.bytes y.storeData)) a = _
    rw [hcfg, commit_mem]
    rfl

end

/-! ### The statement -/

/-- A slot whose destination is a register other than r0 writes it (R533). -/
theorem destReg_of_reg {x : Snapshot} {r : Reg} (hb : x.bubble = false) (hd : x.dest = .reg r) (h : r ≠ 0) :
    x.destReg = some r := by
  rw [Snapshot.destReg_eq_some, hd]
  exact ⟨hb, if_neg h⟩

theorem readGpr_commit_dest {x : Snapshot} {d : Reg} (h : x.destReg = some d) (s : State) : readGpr (commit s x) d = x.result :=
  (readGpr_commit_slot (Snapshot.destReg_eq_some.mp h).1 s d).trans (if_pos h)

/-- Behind an elder that does not load nothing is counted. -/
theorem counting_noLoad {x : Snapshot} (h : x.memRead = false) (s : State) (j : Instr) :
    (s.counting x j).loadUseEvents = s.loadUseEvents := by
  simp [State.counting, loadUse_noLoad h]

/-- ADDU behind the writer of a register. -/
theorem Leads.addu {i : Instr} {s s' : State} {p : Word} {x : Snapshot} (h : Leads i s p s' x) {d : Reg}
    (hx : x.destReg = some d) (hi : intCond s' = false) (rs rt rd : Reg) :
    ∃ t, runPair (encode i) (encode (.addu rs rt rd)) s p = .next t ∧
      gets t rd ((if rs = d then x.result else readGpr s' rs) + (if rt = d then x.result else readGpr s' rt)) ∧
      sameGprBut rd (commit s' x) t ∧ t.loadUseEvents = (s'.counting x (.addu rs rt rd)).loadUseEvents := by
  rw [← fed_valA hx (j := .addu rs rt rd) rfl s' (p + 4#32), ← fed_valB hx (j := .addu rs rt rd) rfl s' (p + 4#32)]
  exact h.computes (j := .addu rs rt rd) rfl rfl (compute := resultOf fun a b => a + b) ⟨rfl, rfl⟩ hi rfl

section
variable {s : State} {r1 : Reg} (hr1 : r1 ≠ 0) (hi : intCond s = false) (p : Word) (r2 r3 : Reg)
include hr1 hi

/-! #### Behind ADDU -/

theorem runPair_addu_addu (r4 : Reg) :
    ∃ t, runPair (encode (.addu r2 r3 r1)) (encode (.addu r1 0 r4)) s p = .next t ∧
      gets t r4 (readGpr s r2 + readGpr s r3) ∧ (r4 ≠ r1 → gets t r1 (readGpr s r2 + readGpr s r3)) ∧
      t.loadUseEvents = s.loadUseEvents := by
  have hx : (addedSnapshot s p r2 r3 r1).destReg = some r1 := destReg_of_reg rfl rfl hr1
  obtain ⟨t, hrun, hgets, hbut, hload⟩ := (leads_addu hi p r2 r3 r1).addu hx hi r1 0 r4
  rw [if_pos rfl, if_neg (Ne.symm hr1), readGpr_zero, BitVec.add_zero] at hgets
  refine ⟨t, hrun, hgets, fun h4 => ?_, hload.trans (counting_noLoad rfl _ _)⟩
  exact (hbut r1 (Ne.symm h4)).trans ((readGpr_commit_dest hx _).trans (if_neg hr1).symm)

theorem runPair_addu_beq (r4 : Reg) (off : BitVec 16) :
    ∃ t, runPair (encode (.addu r2 r3 r1)) (encode (.beq r1 r4 off)) s p = .next t ∧
      t.pc = if readGpr s r2 + readGpr s r3 = (if r4 = r1 then readGpr s r2 + readGpr s r3 else readGpr s r4)
        then p + 8#32 + (off.signExtend 32 <<< 2) else s.pc := by
  have hx : (addedSnapshot s p r2 r3 r1).destReg = some r1 := destReg_of_reg rfl rfl hr1
  obtain ⟨t, hrun, hpc⟩ := (leads_addu hi p r2 r3 r1).transfers (j := .beq r1 r4 off) rfl rfl
    (taken := fun x => x.valA == x.valB) (target := branchTarget) rfl hi
  rw [fed_valA hx rfl, fed_valB hx rfl, if_pos rfl] at hpc
  have htarget : p + 8#32 + (off.signExtend 32 <<< 2) = p + 4#32 + 4#32 + branchOffset off := by
    rw [BitVec.add_assoc p 4#32 4#32]
    rfl
  refine ⟨t, hrun, hpc.trans ?_⟩
  simp only [beq_iff_eq, htarget]
  rfl

theorem runPair_addu_sw {base : Reg} {off : BitVec 16} {pa : Word}
    (hr : reaches s ((if base = r1 then readGpr s r2 + readGpr s r3 else readGpr s base) + off.signExtend 32) .store pa false)
    (ha : aligned ((if base = r1 then readGpr s r2 + readGpr s r3 else readGpr s base) + off.signExtend 32) .word = true)
    (hp : aligned pa .word = true) (hd : isDevice s.cfg pa = false) :
    ∃ t, runPair (encode (.addu r2 r3 r1)) (encode (.sw base r1 off)) s p = .next t ∧
      stored s t (cellsFrom pa (bytesOfValue s.cfg.endian 4 (readGpr s r2 + readGpr s r3))) := by
  have hx : (addedSnapshot s p r2 r3 r1).destReg = some r1 := destReg_of_reg rfl rfl hr1
  obtain ⟨t, hrun, hstored⟩ := (leads_addu hi p r2 r3 r1).stores (j := .sw base r1 off) rfl rfl (isStore_sw base r1 off) hi
    (congrArg (· + _) (fed_valA hx rfl _ _)) ha hr hp hd
  rw [fed_valB hx rfl, if_pos rfl] at hstored
  exact ⟨t, hrun, hstored⟩

theorem runPair_addu_lw {off : BitVec 16} {pa : Word} (r4 : Reg)
    (hr : reaches s (readGpr s r2 + readGpr s r3 + off.signExtend 32) .load pa false)
    (ha : aligned (readGpr s r2 + readGpr s r3 + off.signExtend 32) .word = true)
    (hp : aligned pa .word = true) (hd : isDevice s.cfg pa = false) :
    ∃ t, runPair (encode (.addu r2 r3 r1)) (encode (.lw r1 r4 off)) s p = .next t ∧ gets t r4 (memoryValue s pa .word) := by
  have hx : (addedSnapshot s p r2 r3 r1).destReg = some r1 := destReg_of_reg rfl rfl hr1
  exact (leads_addu hi p r2 r3 r1).loads (j := .lw r1 r4 off) rfl rfl (isLoad_lw r1 r4 off) hi
    (congrArg (· + _) ((fed_valA hx rfl _ _).trans (if_pos rfl))) ha hr hp hd

/-! #### Behind LW -/

variable {base : Reg} {off : BitVec 16} {pa : Word} (hr : reaches s (readGpr s base + off.signExtend 32) .load pa false)
  (ha : aligned (readGpr s base + off.signExtend 32) .word = true) (hp : aligned pa .word = true) (hd : isDevice s.cfg pa = false)
include hr ha hp hd

theorem runPair_lw_addu (r4 : Reg) :
    ∃ t, runPair (encode (.lw base r1 off)) (encode (.addu r1 r2 r4)) s p = .next t ∧
      gets t r4 (memoryValue s pa .word + (if r2 = r1 then memoryValue s pa .word else readGpr s r2)) ∧
      t.loadUseEvents = s.loadUseEvents + (if r2 = r1 then 2 else 1) := by
  have hx : (loadedSnapshot s p pa base r1 off).destReg = some r1 := destReg_of_reg rfl rfl hr1
  obtain ⟨t, hrun, hgets, -, hload⟩ := (leads_lw hi p hr ha hp hd).addu hx hi r1 r2 r4
  rw [if_pos rfl] at hgets
  refine ⟨t, hrun, hgets, hload.trans ?_⟩
  have hcount := loadUse_load hx rfl
  have h1 := hcount r1
  rw [if_pos rfl] at h1
  show s.loadUseEvents + loadUse _ (forwardTag _ r1) + loadUse _ (forwardTag _ r2) = _
  rw [h1, hcount r2]
  split <;> rfl

theorem runPair_lw_lwl {off' : BitVec 16} {pa' : Word}
    (hr' : reaches s (((if r3 = r1 then memoryValue s pa .word else readGpr s r3) + off'.signExtend 32) &&& 0xFFFFFFFC#32)
      .load pa' false) (hp' : aligned pa' .word = true) (hd' : isDevice s.cfg pa' = false) :
    ∃ t, runPair (encode (.lw base r1 off)) (encode (.lwl r3 r1 off')) s p = .next t ∧
      gets t r1 (lwlMerge s.cfg.endian
        (((if r3 = r1 then memoryValue s pa .word else readGpr s r3) + off'.signExtend 32).toNat % 4)
        (memoryValue s pa' .word) (memoryValue s pa .word)) := by
  have hx : (loadedSnapshot s p pa base r1 off).destReg = some r1 := destReg_of_reg rfl rfl hr1
  obtain ⟨t, hrun, hgets⟩ := (leads_lw hi p hr ha hp hd).loads (j := .lwl r3 r1 off') rfl rfl (isLoad_lwl r3 r1 off') hi
    (congrArg (· + _) (fed_valA hx rfl _ _)) (aligned_alignedWord _) hr' hp' hd'
  rw [fed_valB hx rfl, if_pos rfl, byteInWord_eq] at hgets
  exact ⟨t, hrun, hgets⟩

end

/-- The low half of a product is the product of the words. -/
theorem product_low (a b : Word) : (a.signExtend 64 * b.signExtend 64).extractLsb' 0 32 = a * b := by
  have low (x : Word) : (x.signExtend 64).setWidth 32 = x := by
    ext k hk
    rw [BitVec.getElem_setWidth, BitVec.getLsbD_signExtend, if_pos hk]
    simp [hk]
    omega
  rw [← BitVec.setWidth_eq_extractLsb' (by decide), BitVec.setWidth_mul _ _ (by decide), low, low]

theorem runPair_mult_mflo {s : State} (hi : intCond s = false) (p : Word) (r2 r3 r4 : Reg) :
    ∃ t, runPair (encode (.mult r2 r3)) (encode (.mflo r4)) s p = .next t ∧ gets t r4 (readGpr s r2 * readGpr s r3) := by
  obtain ⟨t, hrun, hgets, -⟩ := (leads_mult hi p r2 r3).computes (j := .mflo r4) rfl rfl
    (compute := fun t x => { x with result := t.lo }) ⟨rfl, rfl⟩ hi rfl
  exact ⟨t, hrun, product_low (readGpr s r2) (readGpr s r3) ▸ hgets⟩

/-- Operands in flight, whatever stands in EX, MEM and WB: tagged in ID, and worth the youngest older writer's result when
MEM and WB have passed. -/
theorem operands_newest {s u w x : State} {i : Instr} (hb : s.pipe.dec.bubble = false) (hi : decode s.pipe.dec.instr = .ok i)
    (he : s.pipe.mem.exc = []) (hid : idPhase s = .next u) (hwb : wbPhase (advance u) = .next w) (hmem : memPhase w = .next x) :
    u.pipe.dec.opA = operandA s.pipe (decodeOut i) ∧ u.pipe.dec.opB = operandB s.pipe (decodeOut i) ∧
      x.pipe.ex = u.pipe.dec ∧ ∀ r, operandValue x (forwardTag s.pipe r) = if r = 0 then 0#32
        else if s.pipe.ex.destReg = some r then x.pipe.mem.result
        else if s.pipe.mem.destReg = some r then s.pipe.mem.result
        else readGpr s r := by
  have hu : idStage i { s with active := .decode } = .next u :=
    ((exec_decode i rfl).symm.trans (runSlot_instr hb hi _).symm).trans hid
  cases hu
  obtain ⟨hpipe, hgpr⟩ := wbPhase_commits he hwb
  obtain ⟨hfile, hex, hdest⟩ := memPhase_keeps hmem
  rw [hpipe] at hex hdest
  exact ⟨rfl, rfl, hex, fun r => operandValue_newest hdest ((readGpr_congr hfile r).trans (hgpr r))⟩

/-- Settles O47: the tags and the mux of R533 and R536 for any slots; each pair by what its elder leaves in MEM and what
its younger makes of it. -/
theorem backToBackForwarding : Obligations.BackToBackForwarding := by
  refine ⟨?_, ?_⟩
  · intro s u w x i r hb hi he hid hwb hmem tag newest
    obtain ⟨hA, hB, hx, hvalue⟩ := operands_newest hb hi he hid hwb hmem
    rw [hx, hA, hB]
    exact ⟨fun h => ⟨operandA_of_src1 h, operandA_of_src1 h ▸ hvalue r⟩,
      fun h => ⟨operandB_of_src2 h, operandB_of_src2 h ▸ hvalue r⟩⟩
  · intro s p r1 r2 r3 r4 base off off' pa pa' hr1 hi sum loaded ea newer
    exact ⟨runPair_addu_addu hr1 hi p r2 r3 r4, runPair_mult_mflo hi p r2 r3 r4, runPair_addu_beq hr1 hi p r2 r3 r4 off,
      runPair_addu_sw hr1 hi p r2 r3, runPair_addu_lw hr1 hi p r2 r3 r4, fun hr ha hp hd =>
      ⟨runPair_lw_addu hr1 hi p r2 hr ha hp hd r4, runPair_lw_lwl hr1 hi p r3 hr ha hp hd⟩⟩

end Sys2Proof.Machine
end

section
/-! O12 to O15. Branches and jumps, alone in the pipeline and in EX with other instructions in flight
(spec/41_control_transfer.md R350 to R367, spec/70_reset_and_hazards.md R541). -/

namespace Sys2Proof.Machine

/-! ### Conditions and the region of a jump -/

theorem lessZero_eq_decide (x : Word) : lessZero x = decide (x.toInt < 0) := BitVec.msb_eq_toInt

theorem greaterEqZero_eq_decide (x : Word) : greaterEqZero x = decide (0 ≤ x.toInt) := by
  have h : greaterEqZero x = !decide (x.toInt < 0) := congrArg _ (lessZero_eq_decide x)
  rw [h, ← decide_not]
  exact decide_eq_decide.mpr Int.not_lt

/-- Zero or negative is at most zero (R358). -/
theorem lessEqZero_eq_decide (x : Word) : lessEqZero x = decide (x.toInt ≤ 0) := by
  have h0 : x = 0#32 ↔ x.toInt = 0 := BitVec.toInt_inj.symm
  have h : lessEqZero x = (decide (x = 0#32) || decide (x.toInt < 0)) := congrArg _ (lessZero_eq_decide x)
  rw [h, ← Bool.decide_or]
  exact decide_eq_decide.mpr ((or_congr_left h0).trans le_iff_eq_or_lt.symm)

theorem greaterZero_eq_decide (x : Word) : greaterZero x = decide (0 < x.toInt) := by
  have h : greaterZero x = !lessEqZero x := (Bool.not_or _ _).symm
  rw [h, lessEqZero_eq_decide, ← decide_not]
  exact decide_eq_decide.mpr Int.not_le

/-- The upper four bits of `a` over a jump's target times 4 (R364). -/
theorem or_jumpOffset_eq_append (a : Word) (target : BitVec 26) :
    (a &&& 0xF0000000#32) ||| jumpOffset target = a.extractLsb' 28 4 ++ target ++ 0#2 := by
  have hm : ∀ i < 32, (0xF0000000#32).getLsbD i = decide (28 ≤ i) := by decide
  apply BitVec.eq_of_getLsbD_eq
  intro i hi
  simp only [jumpOffset, BitVec.getLsbD_or, BitVec.getLsbD_and, hm i hi, BitVec.getLsbD_shiftLeft, BitVec.getLsbD_append,
    BitVec.getLsbD_extractLsb', BitVec.truncate_eq_setWidth, BitVec.getLsbD_setWidth]
  by_cases h1 : i < 2
  · simp [h1, show ¬ 28 ≤ i by omega]
  · by_cases h2 : i < 28
    · simp [h1, hi, show ¬ 28 ≤ i by omega, show i - 2 < 26 by omega, show i - 2 < 32 by omega]
    · simp [h1, show 28 ≤ i by omega, show ¬ i - 2 < 26 by omega, show i - 2 - 26 < 4 by omega,
        show 28 + (i - 2 - 26) = i by omega, BitVec.getLsbD_of_ge target (i - 2) (by omega)]

/-! ### The EX step and the passage of a transfer -/

/-- `i` computes no more than a result in EX, goes to `target` there if `taken`, and accesses nothing. -/
structure Transfers (i : Instr) (compute : State → Snapshot → Snapshot) (taken : Snapshot → Bool)
    (target : Snapshot → Word) : Prop where
  exec       : exec i = stages (decodeOut i) none compute (transferIf taken target) memPass
  onlyResult : ∀ s x, compute s x = { x with result := (compute s x).result }

/-- `s` with the fetch register at `v` if `b`. -/
def State.fetchingIf (s : State) (b : Bool) (v : Word) : State := { s with pc := if b then v else s.pc }

/-- The snapshot a linking transfer alone leaves EX with (R352). -/
def linked (i : Instr) (s : State) (p : Word) : Snapshot := { executing i s p with result := p + s.cfg.linkOffset }

/-- With no other instruction in flight a transfer changes only the fetch register. -/
theorem transferIf_atEx (taken : Snapshot → Bool) (target : Snapshot → Word) (s : State) (y : Snapshot) :
    transferIf taken target y (atEx s y) = .next (atEx (s.fetchingIf (taken y) (target y)) y) := by
  unfold transferIf State.fetchingIf
  cases taken y <;> rfl

/-- The commit behind a transfer alone leaves the fetch register where the transfer has put it. -/
theorem commit_onlyPc (s : State) (b : Bool) (v : Word) (y : Snapshot) :
    let t := commit (atWb { s.fetchingIf b v with intShadow := false } y) y
    t.pc = (if b then v else s.pc) ∧ onlyPc s t y.pc := by
  obtain ⟨hhilo, hcp0, hmem, hcaches, ⟨hcycle, hload, hdraws, hcfg, hpc⟩, hcommitted⟩ := commit_atWb_same (s.fetchingIf b v) y
  exact ⟨hpc, hhilo, hcp0, hmem, hcaches, hcycle, hcfg, hload, hdraws, hcommitted⟩

/-- A destination that is the register `rd`, named or implied, gets the result, and no other register changes. -/
theorem commit_gets_of_destReg (s : State) {y : Snapshot} {rd : Reg} (hd : y.dest.destReg = (Selector.reg rd).destReg) :
    let t := commit (atWb { s with intShadow := false } y) y
    gets t rd y.result ∧ sameGprBut rd s t := by
  intro t
  obtain ⟨hgets, hbut, -⟩ := commit_onlyGpr s (y := { y with dest := .reg rd }) rfl
  have hread (q : Reg) : readGpr t q = readGpr (commit (atWb { s with intShadow := false } { y with dest := .reg rd })
      { y with dest := .reg rd }) q := by
    rw [readGpr_commit, readGpr_commit, hd]
    rfl
  exact ⟨(hread rd).trans hgets, fun q hq => (hread q).trans (hbut q hq)⟩

section
variable {i : Instr} {compute : State → Snapshot → Snapshot} {taken : Snapshot → Bool} {target : Snapshot → Word}
  {s : State} {p v : Word} {b : Bool}

theorem Transfers.keeps_exc (h : Transfers i compute taken target) (s : State) (x : Snapshot) :
    (compute s x).exc = x.exc := by
  rw [h.onlyResult]

/-- In EX, whatever else is in flight, the transfer is made exactly under the guard and the condition (R350, R541). -/
theorem exec_execute_of_transfers (h : Transfers i compute taken target) (ha : s.active = .execute)
    (ht : taken (compute s (resolved s)) = b) (hv : target (compute s (resolved s)) = v) :
    ∃ t, exec i s = .next t ∧ t.pipe.mem = s.pipe.mem ∧ t.pipe.wb = s.pipe.wb ∧ t.pipe.ex.exc = s.pipe.ex.exc ∧
      if exGuard s && b then t.pc = v ∧ t.pipe.dec = bubbleSnapshot ∧ t.pipe.fetch = bubbleSnapshot
      else t.pc = s.pc ∧ t.pipe.dec = s.pipe.dec ∧ t.pipe.fetch = s.pipe.fetch := by
  have hexc : (compute s (resolved s)).exc = s.pipe.ex.exc := h.keeps_exc s (resolved s)
  have hguard : exGuard (s.setEx (compute s (resolved s))) = exGuard s :=
    congrArg (fun recs : List ExcRecord => recs.isEmpty && s.pipe.mem.exc.isEmpty) hexc
  have hexec : exec i s = exStage compute (transferIf taken target) s := by
    rw [h.exec]
    exact byStage_execute ha _ _ _ _
  rcases exStage_cases compute (transferIf taken target) s with ⟨hg, e⟩ | ⟨hg, e⟩ <;> rw [hguard] at hg
  · rw [transferIf, ht, hv] at e
    rw [hg]
    cases b <;> exact ⟨_, hexec.trans e, rfl, rfl, hexc, rfl, rfl, rfl⟩
  · rw [hg]
    exact ⟨_, hexec.trans e, rfl, rfl, hexc, rfl, rfl, rfl⟩

/-- Alone, a transfer commits with the snapshot it has computed. -/
theorem Transfers.runs (h : Transfers i compute taken target) (hn : noInterrupt s) {y : Snapshot}
    (hy : compute (atEx s (idSnapshot p (encode i) (decodeOut i) [])) (executing i s p) = y) :
    runsTo i s p (commit (atWb { s.fetchingIf (taken y) (target y) with intShadow := false } y) y) := by
  have hexc : y.exc = [] := hy ▸ h.keeps_exc _ (executing i s p)
  rw [runsTo, runAlone, h.exec]
  exact passAlone_commits rfl ((congrArg _ (resolved_id ..)).trans hy) hexc (transferIf_atEx ..) hexc (.inr hn)

/-- Alone, a transfer without a link changes only the fetch register. -/
theorem Transfers.branches (h : Transfers i noCompute taken target) (hd : (decodeOut i).dest = .none) (hn : noInterrupt s)
    (ht : taken (executing i s p) = b) (hv : target (executing i s p) = v) :
    ∃ t, runsTo i s p t ∧ t.pc = (if b then v else s.pc) ∧ sameGpr s t ∧ onlyPc s t p := by
  subst ht hv
  obtain ⟨hpc, honly⟩ := commit_onlyPc s (taken (executing i s p)) (target (executing i s p)) (executing i s p)
  obtain ⟨-, -, hgpr, -⟩ := commit_onlyCp0 (s.fetchingIf _ _) (y := executing i s p) hd
  exact ⟨_, h.runs hn rfl, hpc, hgpr, honly⟩

/-- Alone, a transfer that links writes `rd` too, taken or not. -/
theorem Transfers.links {rd : Reg} (h : Transfers i linkResult taken target)
    (hd : (decodeOut i).dest.destReg = (Selector.reg rd).destReg) (hn : noInterrupt s)
    (ht : taken (linked i s p) = b) (hv : target (linked i s p) = v) :
    ∃ t, runsTo i s p t ∧ t.pc = (if b then v else s.pc) ∧ gets t rd (p + s.cfg.linkOffset) ∧ sameGprBut rd s t ∧
      onlyPc s t p := by
  subst ht hv
  obtain ⟨hpc, honly⟩ := commit_onlyPc s (taken (linked i s p)) (target (linked i s p)) (linked i s p)
  obtain ⟨hgets, hbut⟩ := commit_gets_of_destReg (s.fetchingIf _ _) (y := linked i s p) hd
  exact ⟨_, h.runs hn rfl, hpc, hgets, hbut, honly⟩

end

/-- Settles O12: each branch's condition is a comparison of the old rs with the old rt or with zero. -/
theorem conditionalBranches : Obligations.ConditionalBranches := by
  intro s p rs rt off hn
  simp only [List.forall_mem_cons]
  refine ⟨?beq, ?bne, ?blez, ?bgtz, ?bltz, ?bgez, nofun⟩
  case beq => exact Transfers.branches ⟨rfl, fun _ _ => rfl⟩ rfl hn rfl rfl
  case bne => exact Transfers.branches ⟨rfl, fun _ _ => rfl⟩ rfl hn (decide_not ..).symm rfl
  case blez => exact Transfers.branches ⟨rfl, fun _ _ => rfl⟩ rfl hn (lessEqZero_eq_decide _) rfl
  case bgtz => exact Transfers.branches ⟨rfl, fun _ _ => rfl⟩ rfl hn (greaterZero_eq_decide _) rfl
  case bltz => exact Transfers.branches ⟨rfl, fun _ _ => rfl⟩ rfl hn (lessZero_eq_decide _) rfl
  case bgez => exact Transfers.branches ⟨rfl, fun _ _ => rfl⟩ rfl hn (greaterEqZero_eq_decide _) rfl

/-- Settles O13: the condition reads the old rs, the link is the result that WB writes. -/
theorem linkingBranches : Obligations.LinkingBranches := by
  intro s p rs off hn
  simp only [List.forall_mem_cons]
  refine ⟨?bltzal, ?bgezal, nofun⟩
  case bltzal => exact Transfers.links ⟨rfl, fun _ _ => rfl⟩ rfl hn (lessZero_eq_decide _) rfl
  case bgezal => exact Transfers.links ⟨rfl, fun _ _ => rfl⟩ rfl hn (greaterEqZero_eq_decide _) rfl

/-- Settles O14: a jump is a transfer that is always taken. -/
theorem jumps : Obligations.Jumps := by
  intro s p rs rd target hn
  refine ⟨?j, ?jal, ?jr, ?jalr⟩
  case j => exact Transfers.branches (b := true) ⟨rfl, fun _ _ => rfl⟩ rfl hn rfl (or_jumpOffset_eq_append _ _)
  case jal => exact Transfers.links (b := true) ⟨rfl, fun _ _ => rfl⟩ rfl hn rfl (or_jumpOffset_eq_append _ _)
  case jr => exact Transfers.branches (b := true) ⟨rfl, fun _ _ => rfl⟩ rfl hn rfl rfl
  case jalr => exact Transfers.links (b := true) ⟨rfl, fun _ _ => rfl⟩ rfl hn rfl rfl

/-- Settles O15: each instruction is a transfer, with its condition and target on the operand values in EX. -/
theorem takenTransferSquashes : Obligations.TakenTransferSquashes := by
  intro s rs rt rd off target ha a b near far
  simp only [List.forall_mem_cons]
  refine ⟨?beq, ?bne, ?blez, ?bgtz, ?bltz, ?bgez, ?bltzal, ?bgezal, ?j, ?jal, ?jr, ?jalr, nofun⟩
  case beq => exact exec_execute_of_transfers ⟨rfl, fun _ _ => rfl⟩ ha rfl rfl
  case bne => exact exec_execute_of_transfers ⟨rfl, fun _ _ => rfl⟩ ha (decide_not ..).symm rfl
  case blez => exact exec_execute_of_transfers ⟨rfl, fun _ _ => rfl⟩ ha (lessEqZero_eq_decide _) rfl
  case bgtz => exact exec_execute_of_transfers ⟨rfl, fun _ _ => rfl⟩ ha (greaterZero_eq_decide _) rfl
  case bltz | bltzal => exact exec_execute_of_transfers ⟨rfl, fun _ _ => rfl⟩ ha (lessZero_eq_decide _) rfl
  case bgez | bgezal => exact exec_execute_of_transfers ⟨rfl, fun _ _ => rfl⟩ ha (greaterEqZero_eq_decide _) rfl
  case j | jal | jr | jalr => exact exec_execute_of_transfers ⟨rfl, fun _ _ => rfl⟩ ha rfl rfl

end Sys2Proof.Machine
end

section
/-! O19, O20, O22. Uncached loads and stores that reach memory (spec/20_memory.md R112, R120, R121,
spec/42_load_store.md R382 to R393). -/

namespace Sys2Proof.Machine

/-- An instruction that commits with one register written and every piece of data as it was changes that register only. -/
theorem onlyGpr_of_onlyData {rt : Reg} {s t : State} {p : Word} (hbut : sameGprBut rt s t) (hmem : t.mem = s.mem)
    (hdcache : t.dcache = s.dcache) (hlog : t.devLog = s.devLog) (hdraws : t.draws = s.draws) (h : onlyData s t p) :
    onlyGpr rt s t p := by
  obtain ⟨hhilo, hcp0, hicache, hbus, hcycle, hcfg, hpc, hload, hcommitted⟩ := h
  exact ⟨hbut, hhilo, hcp0, ⟨fun a => congrArg (Memory.read · a) hmem, hlog⟩, ⟨hicache, hdcache, hbus⟩,
    ⟨hcycle, hload, hdraws, hcfg, hpc⟩, hcommitted⟩

section
variable {i : Instr} {base rt : Reg} {off : BitVec 16} {s : State} {p ea pa : Word} {w : Width}
  (hea : ea = readGpr s base + off.signExtend 32) (hn : noInterrupt s) (hd : isDevice s.cfg pa = false)
  (hp : aligned pa w = true)
include hea hn hd hp

/-- A load around DCACHE gets what memory holds. -/
theorem IsLoad.uncached {place : Word → Word} {extend : Endian → Word → Word → Word → Word}
    (h : IsLoad i base rt off place w extend) (ha : aligned (place ea) w = true) (hr : reaches s (place ea) .load pa false) :
    ∃ t, runsTo i s p t ∧ gets t rt (extend s.cfg.endian ea (readGpr s rt) (memoryValue s pa w)) ∧ onlyGpr rt s t p := by
  obtain ⟨t, hrun, hgets, hbut, hmem, hdcache, hlog, hdraws, honly⟩ := h.completes (p := p) hea hn ha hr
    (m := s.mem) (k := s.dcache) (l := s.devLog) (n := s.draws) (v := memoryValue s pa w) fun x => by
      rw [readAt_uncached hp, mapperFetch_memory (s := atMem s x) hd]
      rfl
  exact ⟨t, hrun, hgets, onlyGpr_of_onlyData hbut hmem hdcache hlog hdraws honly⟩

/-- A store around DCACHE puts the bytes of its value in memory. -/
theorem IsStore.uncached (h : IsStore i base rt off fun _ a r => [{ va := a, width := w, value := r }])
    (ha : aligned ea w = true) (hr : reaches s ea .store pa false) :
    ∃ t, runsTo i s p t ∧ stored s t (cellsFrom pa (bytesOfValue s.cfg.endian w.bytes (readGpr s rt))) ∧ sameGpr s t ∧
      t.dcache = s.dcache ∧ t.devLog = s.devLog ∧ t.draws = s.draws ∧ onlyData s t p := by
  have hall : storeAll s ([{ va := ea, width := w, value := readGpr s rt }].map (storeTarget s ea)) =
      s.withData (s.mem.writeBytes pa (bytesOfValue s.cfg.endian w.bytes (readGpr s rt))) s.dcache s.devLog s.draws := by
    rw [storeTarget_single hr]
    exact mapperStore_memory hd w (readGpr s rt) .dcache
  obtain ⟨t, hrun, hgpr, hmem, hrest⟩ := h.completes (p := p) hea rfl hn (storeRecs_single ha hr)
    (storeErrors_single hr (.inr hp)) (by rw [storeTarget_single hr]; rfl) hall
  exact ⟨t, hrun, fun a => by rw [hmem, Memory.read_writeBytes], hgpr, hrest⟩

end

/-- Settles O19: each load's value is what memory holds, extended as the load says. -/
theorem uncachedLoads : Obligations.UncachedLoads := by
  intro s p base rt off pa hn ea hr hd
  have load {i w extend} (h : IsLoad i base rt off (fun a => a) w extend) (ha : aligned ea w = true)
      (hp : aligned pa w = true) :
      ∃ t, runsTo i s p t ∧ gets t rt (extend s.cfg.endian ea (readGpr s rt) (memoryValue s pa w)) ∧ onlyGpr rt s t p :=
    h.uncached rfl hn hd hp ha hr
  simp only [List.forall_mem_cons]
  exact ⟨load (isLoad_lb _ _ _), load (isLoad_lbu _ _ _), load (isLoad_lh _ _ _), load (isLoad_lhu _ _ _),
    load (isLoad_lw _ _ _), nofun⟩

/-- Settles O20: the word is loaded from memory, and each row of the table is the merge at its byte number. -/
theorem uncachedMergeLoads : Obligations.UncachedMergeLoads := by
  intro s p base rt off pa hn ea W R k hr hp hd
  have row {i} {merge : Endian → Nat → Word → Word → Word}
      (h : IsLoad i base rt off alignedWord .word fun e a r v => merge e (byteInWord a) v r) {e : Endian} {j : Nat} {v : Word}
      (hv : merge e j W R = v) (he : s.cfg.endian = e) (hk : k = j) :
      ∃ t, runsTo i s p t ∧ gets t rt v ∧ onlyGpr rt s t p := by
    have hm := h.uncached (p := p) (ea := ea) rfl hn hd hp (aligned_alignedWord ea) hr
    rwa [byteInWord_eq, he, show ea.toNat % 4 = j from hk, show merge e j (memoryValue s pa .word) (readGpr s rt) = v from hv]
      at hm
  have lwl {e j v} := row (isLoad_lwl base rt off) (e := e) (j := j) (v := v)
  have lwr {e j v} := row (isLoad_lwr base rt off) (e := e) (j := j) (v := v)
  simp only [List.forall_mem_cons]
  exact ⟨lwl rfl, lwl rfl, lwl rfl, lwl rfl, lwl rfl, lwl rfl, lwl rfl, lwl rfl, lwr rfl, lwr rfl, lwr rfl, lwr rfl, lwr rfl,
    lwr rfl, lwr rfl, lwr rfl, nofun⟩

/-- Settles O22: each store's bytes are those of its value in the byte order of the run. -/
theorem uncachedStores : Obligations.UncachedStores := by
  intro s p base rt off pa hn ea r hr hd
  have store {i w bytes} (h : IsStore i base rt off fun _ a r => [{ va := a, width := w, value := r }])
      (hb : bytesOfValue s.cfg.endian w.bytes (readGpr s rt) = bytes) (ha : aligned ea w = true) (hp : aligned pa w = true) :
      ∃ t, runsTo i s p t ∧ stored s t (cellsFrom pa bytes) ∧ sameGpr s t ∧ t.dcache = s.dcache ∧ t.devLog = s.devLog ∧
        t.draws = s.draws ∧ onlyData s t p := hb ▸ h.uncached rfl hn hd hp ha hr
  simp only [List.forall_mem_cons]
  refine ⟨store (isStore_sb _ _ _) ?_, store (isStore_sh _ _ _) ?_, store (isStore_sw _ _ _) ?_, nofun⟩ <;>
    cases s.cfg.endian <;> rfl

end Sys2Proof.Machine
end

section
/-! O38. Instructions of a coprocessor that is not usable, alone in the pipeline (spec/43_system.md R420, R421, R427,
R428, spec/42_load_store.md R397). -/

namespace Sys2Proof.Machine

/-- Given an instruction that holds a record and has issued nothing, the MEM work `work` does no more than add records
that rank after CpU (log entry 14). -/
def OnlyRaisesLater (work : State → MemWork) : Prop :=
  ∀ s x, x.exc ≠ [] → x.memIssued = false →
    ∃ recs : List ExcRecord, work (atMem s x) = .done (atMem s (x.raise recs)) ∧ ∀ r ∈ recs, 45 < r.rank

theorem onlyRaisesLater_noAccess : OnlyRaisesLater noAccess :=
  fun s x _ _ => ⟨[], by rw [Snapshot.raise_nil]; rfl, nofun⟩

/-- CACHE that holds a record is still translated, but does not issue (R397). -/
theorem onlyRaisesLater_cacheWork (op : Nat) : OnlyRaisesLater (cacheWork op) := by
  intro s x he hi
  refine ⟨(addressTranslateUnchecked s x.ea .load).recs, ?_, fun r hr => ?_⟩
  · unfold cacheWork
    rw [if_neg (by simp [atMem, hi])]
    exact if_pos (List.append_ne_nil_of_left_ne_nil he _)
  · rcases addressTranslate_recs (.inl rfl) r (List.mem_append_left _ hr) with rfl | h
    · exact (by decide : 45 < 50)
    · omega

/-- `i` needs coprocessor `z`; what it computes in EX adds no record, and its work in MEM none that ranks before CpU. -/
structure NeedsCop (i : Instr) (z : BitVec 2) (compute : State → Snapshot → Snapshot) (effect : Snapshot → State → Out)
    (isRfe : Bool) (work : State → MemWork) : Prop where
  exec   : exec i = stages (decodeOut i) (some z) compute effect (memStep isRfe work)
  keeps  : ∀ s x, (compute s x).pc = x.pc ∧ (compute s x).exc = x.exc ∧ (compute s x).memIssued = x.memIssued ∧
    (compute s x).exSideEffect = x.exSideEffect
  raises : OnlyRaisesLater work

/-- MEM of an instruction that holds a CpU record: whatever the sample and the work add ranks after it. -/
theorem memStep_cpu {work : State → MemWork} (hw : OnlyRaisesLater work) (isRfe : Bool) (s : State) {x : Snapshot}
    {r : ExcRecord} (hr : r.rank = 45) (he : x.exc = [r]) (hi : x.memIssued = false) (hx : x.exSideEffect = false) :
    ∃ y b, memStep isRfe work (atMem s x) = .next (atMem { s with intShadow := b } y) ∧ y.pc = x.pc ∧
      selectRecord y.exc = some r := by
  obtain ⟨pre, hsample, hpre⟩ : ∃ pre, sampleInterrupt (atMem s x) = atMem s (x.raise pre) ∧
      ∀ q ∈ pre, 45 < ExcRecord.rank q := by
    rcases sampleInterrupt_atMem s x with h | h
    · exact ⟨[], by rw [h, Snapshot.raise_nil], nofun⟩
    · exact ⟨_, h, by decide⟩
  obtain ⟨recs, hwork, hrecs⟩ := hw s (x.raise pre) (by simp [Snapshot.raise, he]) hi
  refine ⟨(x.raise pre).raise recs, if s.intShadow then false else s.intShadow, ?_, rfl, ?_⟩
  · rw [memStep, hsample, hwork]
    simp [atMem, Snapshot.raise, hx]
  · refine selectRecord_of_least (by simp [Snapshot.raise, he]) fun q hq => ?_
    simp only [Snapshot.raise, he, List.mem_append, List.mem_singleton] at hq
    rcases hq with (hq | hq) | hq
    · exact .inl hq
    · exact .inr (hr ▸ hpre q hq)
    · exact .inr (hr ▸ hrecs q hq)

/-- An instruction whose coprocessor is not usable takes CpU with its number. -/
theorem NeedsCop.traps {i : Instr} {z : BitVec 2} {compute : State → Snapshot → Snapshot} {effect : Snapshot → State → Out}
    {isRfe : Bool} {work : State → MemWork} (h : NeedsCop i z compute effect isRfe work) {s : State} (p : Word)
    (hz : copAllowed s z = false) : traps i s p { kind := .cpu, mode := .any, cop := z } := by
  have hc : copCheck s (some z) = [{ kind := .cpu, mode := .any, cop := z }] := by simp [copCheck, hz]
  let x := idSnapshot p (encode i) (decodeOut i) [{ kind := .cpu, mode := .any, cop := z }]
  obtain ⟨hpc, hexc, hissued, hside⟩ := h.keeps (atEx s x) (resolved (atEx s x))
  obtain ⟨y, b, hmem, hy, hselect⟩ := memStep_cpu h.raises isRfe s (r := { kind := .cpu, mode := .any, cop := z }) rfl
    hexc hissued hside
  refine ⟨_, ?_, tookException_takeException s y b p _⟩
  rw [runsTo, runAlone, h.exec, passAlone_stages, hc, exStage_alone_record _ _ _ _ (by rw [hexc]; exact List.cons_ne_nil _ _),
    andThen_next, advance_atEx, hmem, andThen_next, 
    ← show y.pc = p from hy.trans hpc]
  exact wbStage_alone_record { s with intShadow := b } y _ hselect

/-- Settles O38: the record of ID's check ranks before all that EX and MEM may add. -/
theorem coprocessorUnusableTraps : Obligations.CoprocessorUnusableTraps := by
  intro s p base rt n op off sub cpu
  have passes {i z effect isRfe} (h : exec i = stages (decodeOut i) (some z) noCompute effect (memStep isRfe noAccess))
      (hz : copAllowed s z = false) : traps i s p (cpu z) :=
    NeedsCop.traps ⟨h, fun _ _ => ⟨rfl, rfl, rfl, rfl⟩, onlyRaisesLater_noAccess⟩ p hz
  have cache (hz : copAllowed s 0#2 = false) : traps (.cache base op off) s p (cpu 0#2) :=
    NeedsCop.traps ⟨(isAccess_cache base op off).exec, fun _ _ => ⟨rfl, rfl, rfl, rfl⟩, onlyRaisesLater_cacheWork op⟩ p hz
  have unusable {z : BitVec 2} (h0 : z ≠ 0#2) (hz : s.copUsable z = false) : copAllowed s z = false := by
    simp [copAllowed, h0, hz]
  simp only [List.forall_mem_cons]
  refine ⟨fun hu hz => ?_, fun hz => ?_, fun hz => ?_, fun hz => ?_⟩
  · have hz := copAllowed_zero_eq_false.mpr ⟨hu, hz⟩
    exact ⟨passes rfl hz, passes rfl hz, passes rfl hz, passes rfl hz, passes rfl hz, passes rfl hz, passes rfl hz, cache hz,
      nofun⟩
  all_goals
    have hz := unusable (by decide) hz
    exact ⟨passes rfl hz, passes rfl hz, passes rfl hz, nofun⟩

end Sys2Proof.Machine
end

section
/-! O34. SYSCALL and BREAK alone in the pipeline (spec/43_system.md R422, R423). -/

namespace Sys2Proof.Machine

/-- An instruction that raises its record in EX takes it, an interrupt requested or not. -/
theorem raiseInstr_traps {i : Instr} {k : ExcKind} (hexec : exec i = raiseInstr i k) (hc : copNeeded i = none)
    (hr : ExcRecord.rank { kind := k, mode := .any } ≤ 90) (s : State) (p : Word) : traps i s p { kind := k, mode := .any } := by
  let raising : Snapshot → Snapshot := (·.raise [{ kind := k, mode := .any }])
  have hstages : exec i = stages (decodeOut i) none (fun _ => raising) noEffect memPass := by
    rw [hexec, ← hc]
    rfl
  obtain ⟨y, b, hpass⟩ := passAlone_traps (n := none) (compute := fun _ => raising) (effect := noEffect)
    (x := raising (executing i s p)) (congrArg raising (resolved_id s p (encode i) (decodeOut i) [])) rfl rfl hr
  refine ⟨_, ?_, tookException_takeException s y b p _⟩
  rw [runsTo, runAlone, hstages]
  exact hpass

/-- Settles O34: each raises its record in EX, and no record of an instruction alone ranks before it. -/
theorem syscallAndBreakTrap : Obligations.SyscallAndBreakTrap := fun s p _ =>
  ⟨raiseInstr_traps rfl rfl (by decide) s p, raiseInstr_traps rfl rfl (by decide) s p⟩

end Sys2Proof.Machine
end

section
/-! O35. RFE alone in the pipeline and with JR right behind it (spec/43_system.md R424, spec/60_exceptions.md R462, R480,
spec/70_reset_and_hazards.md R523). -/

namespace Sys2Proof.Machine

/-! ### The pop of SR -/

/-- The pop copies bits 5:2 to bits 3:0 (R424). -/
theorem popStatus_eq_append (sr : Word) : popStatus sr = sr.extractLsb' 4 28 ++ sr.extractLsb' 2 4 := by
  have hhigh : ∀ i < 32, (0xFFFFFFF0#32).getLsbD i = decide (4 ≤ i) := by decide
  have hlow : ∀ i < 32, (0x0000003C#32).getLsbD (2 + i) = decide (i < 4) := by decide
  apply BitVec.eq_of_getLsbD_eq
  intro i hi
  simp only [popStatus, BitVec.getLsbD_or, BitVec.getLsbD_and, hhigh i hi, BitVec.getLsbD_ushiftRight, hlow i hi,
    BitVec.getLsbD_append, BitVec.getLsbD_extractLsb']
  by_cases h : i < 4
  · simp [h]
  · simp [h, hi, show 4 ≤ i by omega, show i - 4 < 28 by omega, show 4 + (i - 4) = i by omega]

theorem popStatus_low (sr : Word) : (popStatus sr).extractLsb' 0 4 = sr.extractLsb' 2 4 := by
  rw [popStatus_eq_append]
  exact BitVec.extractLsb'_append_eq_right

theorem popStatus_high (sr : Word) : (popStatus sr).extractLsb' 4 28 = sr.extractLsb' 4 28 := by
  rw [popStatus_eq_append]
  exact BitVec.extractLsb'_append_eq_left

/-- KUp and IEp become KUc and IEc. -/
theorem getLsbD_popStatus_low (sr : Word) {k : Nat} (hk : k < 4) : (popStatus sr).getLsbD k = sr.getLsbD (2 + k) := by
  rw [popStatus_eq_append, BitVec.getLsbD_append, BitVec.getLsbD_extractLsb']
  simp [hk]

/-! ### RFE alone -/

/-- RFE at `p` after EX, marked so that no interrupt is sampled of it (R462, R540). -/
def rfeSnapshot (s : State) (p : Word) : Snapshot := { executing .rfe s p with exSideEffect := true }

/-- `s` once RFE has passed MEM: SR popped, the shadow set (R424, R462). -/
def State.returned (s : State) : State := { s with sr := popStatus s.sr, intShadow := true }

/-- MEM of an RFE that has popped SR, whatever else is in flight: no interrupt is sampled, the shadow is set (R462). -/
theorem memStep_rfe {s : State} (h : s.pipe.mem.exSideEffect = true) :
    memStep true noAccess s = .next { s with stall := false, intShadow := true } := by
  rw [memStep, sampleInterrupt_none s (.inl h)]
  simp [noAccess, h]

/-- RFE alone commits without a register written. -/
theorem runsTo_rfe {s : State} (hc : s.userMode = false ∨ s.copUsable 0#2 = true) (p : Word) :
    runsTo .rfe s p (commit (atWb s.returned (rfeSnapshot s p)) (rfeSnapshot s p)) := by
  have hstages : exec .rfe = stages (decodeOut .rfe) (some 0#2) noCompute rfeEffect (memStep true noAccess) := rfl
  have hex : exStage noCompute rfeEffect (atEx s (idSnapshot p (encode .rfe) (decodeOut .rfe) [])) =
      .next (atEx { s with sr := popStatus s.sr } (rfeSnapshot s p)) := rfl
  rw [runsTo, runAlone, hstages, passAlone_stages, copCheck_usable hc, hex, andThen_next, advance_atEx, memStep_rfe rfl]
  exact wbStage_alone s.returned (rfeSnapshot s p) rfl

/-! ### RFE with JR right behind it -/

theorem exPhase_of_eq {s u : State} (h : { s with active := .execute } = u) : exPhase s = runSlot u.pipe.ex u := by
  subst h
  rfl

theorem memPhase_of_eq {s u : State} (h : { s with active := .memory, stall := false } = u) :
    memPhase s = runSlot u.pipe.mem u := by
  subst h
  rfl

/-- RFE leads: its pop and the shadow stand before the younger is in EX (R480). -/
theorem leads_rfe {s : State} (hc : s.userMode = false ∨ s.copUsable 0#2 = true) (p : Word) :
    Leads .rfe s p s.returned (rfeSnapshot s p) where
  holds := ⟨rfl, roundTrip .rfe rfl, rfl⟩
  front j hj hcj := by
    let popped : State := { s with sr := popStatus s.sr }
    obtain ⟨a, hid, ha⟩ := decodeStep_alone (decodeOut .rfe) (copCheck s (some 0#2)) s p (encode .rfe)
    rw [copCheck_usable hc] at ha
    have hid : idPhase (issue s p (encode .rfe)) = .next a := (runSlot_instr (i := .rfe) rfl (roundTrip .rfe rfl) _).trans hid
    have hex : exPhase (behind (p + 4#32) (encode j) (advance a)) =
        .next (behind (p + 4#32) (encode j) (atEx popped (rfeSnapshot s p))) :=
      (exPhase_of_eq (congrArg (behind _ _) ha)).trans ((runSlot_instr (i := .rfe) rfl (roundTrip .rfe rfl) _).trans rfl)
    obtain ⟨c, hid', hc'⟩ := idPhase_behind hj hcj popped (rfeSnapshot s p) (p + 4#32)
    have hmem : memPhase (advance c) = .next (exMem (s.returned.counting (rfeSnapshot s p) j)
        (follower (rfeSnapshot s p) j (p + 4#32)) (rfeSnapshot s p) .memory) :=
      (memPhase_of_eq hc').trans ((runSlot_instr (i := .rfe) rfl (roundTrip .rfe rfl) _).trans (memStep_rfe rfl))
    rw [runPairFront, hid, andThen_next, hex, andThen_next, hid', andThen_next, hmem]

/-- JR at `p + 4` behind RFE at `p`, in EX. -/
def jrSnapshot (s : State) (p : Word) (rX : Reg) : Snapshot := fed s.returned (rfeSnapshot s p) (.jr rX) (p + 4#32)

/-- RFE writes no register, so JR reads the register file. -/
theorem jrSnapshot_valA (s : State) (p : Word) (rX : Reg) : (jrSnapshot s p rX).valA = readGpr s rX := by
  have htag : forwardTag { ex := rfeSnapshot s p } rX = .architectural rX := by
    have hnone : (rfeSnapshot s p).destReg = none := rfl
    unfold forwardTag
    split <;> simp_all [Snapshot.destReg]
  exact congrArg (operandValue (exMem s.returned _ (rfeSnapshot s p) .execute)) htag

/-- JR behind RFE commits: the shadow, which it clears, keeps it from being sampled (R462, R480). -/
theorem runPair_rfe_jr {s : State} (hc : s.userMode = false ∨ s.copUsable 0#2 = true) (p : Word) (rX : Reg) :
    runPair (encode .rfe) (encode (.jr rX)) s p = .next (commit (atWb { commit { s.returned with pc := readGpr s rX }
      (rfeSnapshot s p) with intShadow := false } (jrSnapshot s p rX)) (jrSnapshot s p rX)) := by
  have hy : Holds (jrSnapshot s p rX) (.jr rX) := ⟨rfl, roundTrip (.jr rX) rfl, rfl⟩
  have hcount : s.returned.counting (rfeSnapshot s p) (.jr rX) = s.returned := by
    simp [State.counting, loadUse_noLoad (x := rfeSnapshot s p) rfl]
  refine (leads_rfe hc p).pair rfl rfl hy hy (u := { s.returned with pc := readGpr s rX }) ?_ rfl
  rw [hcount, ← jrSnapshot_valA s p rX]
  rfl

/-- Settles O35: RFE's effect is the pop, and the instruction behind it runs under the SR that it leaves. -/
theorem rfePopsStatus : Obligations.RfePopsStatus := by
  intro s p hc
  refine ⟨⟨_, runsTo_rfe hc p, popStatus_low s.sr, popStatus_high s.sr, rfl, rfl, rfl, rfl, fun _ => rfl, ⟨rfl, rfl⟩,
    ⟨fun _ => rfl, rfl⟩, ⟨rfl, rfl, rfl, rfl, rfl⟩, ⟨rfl, rfl, rfl, rfl, rfl⟩, rfl⟩, fun rX => ?_⟩
  exact ⟨_, runPair_rfe_jr hc p rX, rfl, getLsbD_popStatus_low s.sr (by decide), getLsbD_popStatus_low s.sr (by decide),
    popStatus_high s.sr, rfl, rfl, rfl, rfl, fun _ => rfl, ⟨rfl, rfl⟩, ⟨fun _ => rfl, rfl⟩, rfl, rfl, rfl, rfl, rfl⟩

end Sys2Proof.Machine
end

section
/-! O52. An instruction of user mode without coprocessor 0, alone in the pipeline: no EX effect writes SR or Cause, no
access that leaves a record has stored to memory, and exception entry leads into kernel mode (spec/43_system.md R420, R421,
spec/60_exceptions.md R474, R475, R485). -/

namespace Sys2Proof.Machine

/-! ### What exception entry leaves in SR and the fetch register -/

/-- Entry clears KUc and IEc (R474). -/
theorem getLsbD_pushStatus_low (sr : Word) {k : Nat} (hk : k < 2) : (pushStatus sr).getLsbD k = false := by
  have hm : ∀ k < 2, (0xFFFFFFC0#32).getLsbD k = false := by decide
  simp [pushStatus, hm k hk, hk]

/-- The handler stands at one of four addresses (R475). -/
theorem vector_mem (bev : Bool) (r : ExcRecord) :
    vector bev r ∈ [0xBFC00100#32, 0xBFC00180#32, 0x80000000#32, 0x80000080#32] := by
  cases bev <;> by_cases h : r.kind = .tlb ∧ r.refill = true <;> simp [vector, h]

/-! ### EX without the right to coprocessor 0 -/

/-- An instruction that computes nothing and holds a record has no effect in EX (R540). -/
theorem exStage_record {effect : Snapshot → State → Out} {s : State} (he : s.pipe.ex.exc ≠ []) :
    exStage noCompute effect s = .next (s.setEx (resolved s)) := by
  rcases exStage_cases noCompute effect s with ⟨hg, -⟩ | ⟨-, e⟩
  · have hg : (s.pipe.ex.exc.isEmpty && s.pipe.mem.exc.isEmpty) = true := hg
    exact absurd (List.isEmpty_iff.mp (Bool.and_eq_true_iff.mp hg).1) he
  · exact e

/-- The snapshot that `i`, alone at `p`, leaves ID with, its check's record with it. -/
def checked (i : Instr) (s : State) (p : Word) : Snapshot :=
  idSnapshot p (encode i) (decodeOut i) (copCheck s (copNeeded i))

/-- The writers of SR and Cause are instructions of coprocessor 0: not usable, they hold CpU and write nothing (R420). -/
theorem exec_execute_confined {i : Instr} {s t : State} {p : Word} (hz : copAllowed s 0#2 = false)
    (h : exec i (atEx s (checked i s p)) = .next t) : t.sr = s.sr ∧ t.cause = s.cause := by
  have blocked {effect : Snapshot → State → Out} (hc : copNeeded i = some 0#2)
      (hexec : exec i (atEx s (checked i s p)) = exStage noCompute effect (atEx s (checked i s p))) :
      t.sr = s.sr ∧ t.cause = s.cause := by
    have he : (atEx s (checked i s p)).pipe.ex.exc ≠ [] := by simp [atEx, checked, idSnapshot, hc, copCheck, hz]
    cases ((exStage_record he).symm.trans (hexec.symm.trans h))
    exact ⟨rfl, rfl⟩
  obtain ⟨hsr, hcause⟩ := exec_execute_status i rfl h
  constructor
  · by_contra hne
    rcases hsr hne with rfl | ⟨rt, rfl⟩
    · exact hne (blocked rfl rfl).1
    · exact hne (blocked rfl rfl).1
  · by_contra hne
    obtain ⟨rt, rfl⟩ := hcause hne
    exact hne (blocked rfl rfl).2

/-! ### MEM stores nothing where it leaves a record -/

theorem cacheReady_mem (s : State) (c : CacheId) (pa : Word) (mode : AccessMode) : (cacheReady s c pa mode).2.mem = s.mem := by
  rcases h : cacheReady s c pa mode with ⟨_ | _, t⟩
  · obtain ⟨k, rfl, -⟩ := cacheReady_false h
    exact setCache_mem s c k
  · obtain ⟨rfl, -⟩ := cacheReady_true h
    rfl

theorem cacheRead_mem (s : State) (c : CacheId) (pa : Word) (w : Width) : (cacheRead s c pa w).2.mem = s.mem := by
  simp only [cacheRead]
  split
  · simp
  · rfl

theorem readAt_mem (s : State) (pa : Word) (c : Bool) (w : Width) (bad : Word) : (readAt s pa c w bad).state.mem = s.mem := by
  have hready := cacheReady_mem s .dcache pa .load
  unfold readAt
  split
  · split <;> rename_i e <;> rw [e] at hready
    · exact hready
    · exact (cacheRead_mem _ _ _ _).trans hready
  · split
    · exact mapperFetch_mem s pa w .dcache
    · rfl

theorem memRead_mem (s : State) (va bad : Word) (w : Width) : (memRead s va bad w).state.mem = s.mem := by
  unfold memRead
  dsimp only
  split
  · rfl
  · split
    · rfl
    · exact readAt_mem _ _ _ _ _

/-- The stores end with a record of the Mapper and store nothing, or leave the slots alone. -/
theorem writeAt_mem_or_pipe (s : State) (bad : Word) (ts : List StoreTarget) :
    (writeAt s bad ts).state.mem = s.mem ∨ (writeAt s bad ts).state.pipe = s.pipe := by
  have hready := (storesReady_keeps ts s).pipe
  unfold writeAt
  split
  · right
    split <;> rename_i e <;> rw [e] at hready
    · exact hready
    · exact (storeAll_keeps ts _).pipe.trans hready
  · exact .inl rfl

/-- A write whose checks leave a record is not performed. -/
theorem memWrite_mem_or_exc (s : State) (bad : Word) (items : List StoreItem) :
    (memWrite s bad items).state.mem = s.mem ∨ (memWrite s bad items).state.pipe.mem.exc = [] := by
  by_cases hrecs : s.pipe.mem.exc ++ storeRecs s bad items = []
  · obtain ⟨he, hrecs⟩ := List.append_eq_nil_iff.mp hrecs
    rw [memWrite_reaches he hrecs]
    exact (writeAt_mem_or_pipe s _ _).imp_right fun hpipe => by rw [hpipe, he]
  · rw [memWrite_faulted hrecs]
    exact .inl rfl

theorem perform_mem (a : CacheAction) (s : State) (pa : Word) : (a.perform s pa).mem = s.mem := by
  cases a <;> simp only [CacheAction.perform, opHitInvalidate, opHitWriteback, opHitWbInvalidate]
  case hitInvalidate => split <;> simp
  case hitWriteback => split <;> [split; skip] <;> simp
  case hitWbInvalidate => split <;> [split; skip] <;> simp

/-- The MEM work `work` changes memory only where it leaves its instruction without a record. -/
def StoresWithoutRecord (work : State → MemWork) : Prop :=
  ∀ s, (work s).state.mem = s.mem ∨ (work s).state.pipe.mem.exc = []

theorem noAccess_stores : StoresWithoutRecord noAccess := fun _ => .inl rfl

theorem loadWork_stores {read : State → Access} (extend : State → Snapshot → Word → Word)
    (hr : ∀ s, (read s).state.mem = s.mem) : StoresWithoutRecord (loadWork read extend) := by
  intro s
  have hr := hr s
  unfold loadWork
  left
  split <;> rename_i e <;> rw [e] at hr <;> exact hr

theorem storeWork_stores {write : State → Access}
    (hw : ∀ s, (write s).state.mem = s.mem ∨ (write s).state.pipe.mem.exc = []) : StoresWithoutRecord (storeWork write) := by
  intro s
  have hw := hw s
  unfold storeWork
  split <;> rename_i e <;> rw [e] at hw <;> exact hw

theorem cacheWork_stores (op : Nat) : StoresWithoutRecord (cacheWork op) := by
  intro s
  left
  unfold cacheWork
  split
  · unfold cacheWait
    split
    · rfl
    · split <;> rfl
  · dsimp only
    split
    · rfl
    · split
      · rfl
      · rename_i pa _
        have hperform := perform_mem (cacheAction op) (s.raiseMem (addressTranslateUnchecked s s.pipe.mem.ea .load).recs) pa
        unfold cacheIssue
        split
        · rfl
        · split
          · rfl
          · split
            · rfl
            · dsimp only
              split <;> exact hperform

/-- The interrupt sample adds a record only, and the end of the MEM step touches neither memory nor the slot. -/
theorem memStep_stores {isRfe : Bool} {work : State → MemWork} (hw : StoresWithoutRecord work) {s t : State}
    (h : memStep isRfe work s = .next t) : t.mem = s.mem ∨ t.pipe.mem.exc = [] := by
  have hsample : (sampleInterrupt s).mem = s.mem := by
    unfold sampleInterrupt
    split <;> rfl
  have hw := hw (sampleInterrupt s)
  rw [hsample] at hw
  unfold memStep at h
  split at h <;> rename_i e <;> rw [e] at hw <;> cases h <;> exact hw

/-- In MEM an instruction that is left with a record has stored nothing (R120, R121, R123). -/
theorem exec_memory_stores (i : Instr) {s t : State} (ha : s.active = .memory) (h : exec i s = .next t) :
    t.mem = s.mem ∨ t.pipe.mem.exc = [] := by
  cases i <;> replace h := (byStage_memory ha _ _ _ _).symm.trans h <;> refine memStep_stores ?_ h
  case lb | lbu | lh | lhu | lw | lwl | lwr => exact loadWork_stores _ fun s => memRead_mem s _ _ _
  case sb | sh | sw | swl | swr => exact storeWork_stores fun s => memWrite_mem_or_exc s _ _
  case cache => exact cacheWork_stores _
  all_goals exact noAccess_stores

/-! ### The passage -/

/-- Alone, an instruction passes ID, EX and MEM, and stalls there or goes on to WB. -/
theorem runsTo_stages {i : Instr} {s t : State} {p : Word} (h : runsTo i s p t) :
    ∃ b c, exec i (atEx s (checked i s p)) = .next b ∧
      exec i { advance b with active := .memory, stall := false } = .next c ∧
      (t = c ∨ wbStage { advance c with active := .writeback } = .next t) := by
  obtain ⟨a, hid, hadv⟩ := decodeStep_alone (decodeOut i) (copCheck s (copNeeded i)) s p (encode i)
  rw [runsTo, runAlone, passAlone, exec_decode i rfl] at h
  rw [show idStage i _ = .next a from hid, andThen_next, hadv] at h
  obtain ⟨b, hb, h⟩ := andThen_eq_next h
  obtain ⟨c, hc, h⟩ := andThen_eq_next h
  refine ⟨b, c, hb, hc, ?_⟩
  split at h
  · cases h
    exact .inl rfl
  · rw [exec_writeback i rfl] at h
    exact .inr h

/-- Settles O52: before WB nothing has written a register of CP0 or a general register, nor memory if there is a record;
WB then commits or enters the handler. -/
theorem userModeConfined : Obligations.UserModeConfined := by
  intro i s t p hu hz hrun
  obtain ⟨b, c, hex, hmem, hend⟩ := runsTo_stages hrun
  obtain ⟨hbsr, hbcause⟩ := exec_execute_confined (copAllowed_zero_eq_false.mpr ⟨hu, hz⟩) hex
  have f := exec_execute_frame i rfl hex
  have g := exec_memory_frame i rfl hmem
  have hcp0 : c.sr = s.sr ∧ c.cause = s.cause ∧ c.epc = s.epc ∧ c.badVAddr = s.badVAddr :=
    ⟨g.sr.trans hbsr, g.cause.trans hbcause, g.epc.trans f.epc, g.badVAddr.trans f.badVAddr⟩
  have hpc : c.pipe.mem.pc = p := g.slotMem.1.trans f.slotEx.1
  rcases hend with rfl | hwb
  · exact .inl hcp0
  · rcases wbStage_cases { advance c with active := .writeback } with ⟨r, hr, e⟩ | ⟨-, e⟩ <;> cases e.symm.trans hwb
    · have hrec : c.pipe.mem.exc ≠ [] := fun he => nomatch (congrArg selectRecord he).symm.trans hr
      have hstored : c.mem = b.mem := (exec_memory_stores i rfl hmem).resolve_right hrec
      exact .inr ⟨getLsbD_pushStatus_low _ (by decide), getLsbD_pushStatus_low _ (by decide), hpc,
        readGpr_congr (g.gpr.trans f.gpr), hstored.trans f.mem, vector_mem _ r⟩
    · obtain ⟨hsr, hcause, hepc, hbad⟩ := hcp0
      exact .inl ⟨(commit_sr _ _).trans hsr, (commit_cause _ _).trans hcause, (commit_epc _ _).trans hepc,
        (commit_badVAddr _ _).trans hbad⟩

end Sys2Proof.Machine
end

section
/-! O41. What exception entry leaves, bit by bit (spec/60_exceptions.md R450, R474, R475). -/

namespace Sys2Proof.Machine

/-- Entry moves bits 3:0 to bits 5:2 and clears bits 1:0 (R474). -/
theorem pushStatus_eq_append (sr : Word) : pushStatus sr = sr.extractLsb' 6 26 ++ (sr.extractLsb' 0 4 ++ 0b00#2) := by
  have hhigh : ∀ i < 32, (0xFFFFFFC0#32).getLsbD i = decide (6 ≤ i) := by decide
  have hlow : ∀ i < 32, (0x0000000F#32).getLsbD i = decide (i < 4) := by decide
  apply BitVec.eq_of_getLsbD_eq
  intro i hi
  simp only [pushStatus, BitVec.getLsbD_or, BitVec.getLsbD_and, hhigh i hi, BitVec.getLsbD_shiftLeft,
    hlow (i - 2) (by omega), BitVec.getLsbD_append, BitVec.getLsbD_extractLsb']
  grind

/-- Entry replaces ExcCode and CE, clears BD and keeps every other bit of Cause (R474). -/
theorem causeAtEntry_eq_append (cause : Word) (r : ExcRecord) : causeAtEntry cause r =
    0#1 ++ (cause.extractLsb' 30 1 ++ ((if r.kind = .cpu then r.cop else 0#2) ++
      (cause.extractLsb' 7 21 ++ (r.code ++ cause.extractLsb' 0 2)))) := by
  have hmask : ∀ i < 32, (0x4FFFFF83#32).getLsbD i =
      (decide (i < 2) || decide (7 ≤ i) && decide (i < 28) || decide (i = 30)) := by decide
  apply BitVec.eq_of_getLsbD_eq
  intro i hi
  simp only [causeAtEntry, BitVec.getLsbD_or, BitVec.getLsbD_and, hmask i hi, BitVec.getLsbD_shiftLeft,
    BitVec.truncate_eq_setWidth, BitVec.getLsbD_setWidth, BitVec.getLsbD_append, BitVec.getLsbD_extractLsb']
  grind

theorem pushStatus_low (sr : Word) : (pushStatus sr).extractLsb' 0 6 = sr.extractLsb' 0 4 ++ 0b00#2 := by
  rw [pushStatus_eq_append]
  exact BitVec.extractLsb'_append_eq_right

theorem pushStatus_high (sr : Word) : (pushStatus sr).extractLsb' 6 26 = sr.extractLsb' 6 26 := by
  rw [pushStatus_eq_append]
  exact BitVec.extractLsb'_append_eq_left

theorem causeAtEntry_code (cause : Word) (r : ExcRecord) : (causeAtEntry cause r).extractLsb' 2 5 = r.code := by
  rw [causeAtEntry_eq_append, extract_within (by decide), extract_within (by decide), extract_within (by decide),
    extract_within (by decide)]
  exact BitVec.extractLsb'_append_eq_left

theorem causeAtEntry_ce (cause : Word) (r : ExcRecord) :
    (causeAtEntry cause r).extractLsb' 28 2 = if r.kind = .cpu then r.cop else 0#2 := by
  rw [causeAtEntry_eq_append, extract_within (by decide), extract_within (by decide)]
  exact BitVec.extractLsb'_append_eq_left

theorem causeAtEntry_bd (cause : Word) (r : ExcRecord) : (causeAtEntry cause r).getLsbD 31 = false := by
  rw [causeAtEntry_eq_append, BitVec.getLsbD_append]
  rfl

/-- CE and ExcCode are no bits of the mask that keeps the rest of Cause. -/
theorem causeAtEntry_kept (cause : Word) (r : ExcRecord) :
    causeAtEntry cause r &&& 0x4FFFFF83#32 = cause &&& 0x4FFFFF83#32 := by
  have hce : ∀ c : BitVec 2, (c.zeroExtend 32 <<< 28) &&& 0x4FFFFF83#32 = 0#32 := by decide
  have hcode : ∀ c : BitVec 5, (c.zeroExtend 32 <<< 2) &&& 0x4FFFFF83#32 = 0#32 := by decide
  simp only [causeAtEntry, BitVec.and_or_distrib_right, hce, hcode, BitVec.or_zero, BitVec.and_assoc, BitVec.and_self]

/-- ExcCode depends on the kind and the mode alone (R450). -/
theorem code_eq {r : ExcRecord} {k : ExcKind} {m : AccessMode} (hk : r.kind = k) (hm : r.mode = m) :
    r.code = ExcRecord.code { kind := k, mode := m } := by
  unfold ExcRecord.code
  rw [hk, hm]

theorem hasAddress_iff (r : ExcRecord) : r.hasAddress = true ↔ r.kind = .addrErr ∨ r.kind = .tlb ∨ r.kind = .mod := by
  unfold ExcRecord.hasAddress
  cases r.kind <;> decide

/-- The four vectors of R475. -/
theorem vector_eq (bev : Bool) (r : ExcRecord) : vector bev r =
    if bev then (if r.kind = .tlb ∧ r.refill = true then 0xBFC00100#32 else 0xBFC00180#32)
    else (if r.kind = .tlb ∧ r.refill = true then 0x80000000#32 else 0x80000080#32) := by
  cases bev <;> by_cases h : r.kind = .tlb ∧ r.refill = true <;> simp [vector, h]

/-- Settles O41: WB enters the handler with the selected record, whatever the instruction. -/
theorem exceptionEntry : Obligations.ExceptionEntry := by
  intro i s r ha hr
  refine ⟨takeException s s.pipe.wb.pc r, ?_, pushStatus_low _, pushStatus_high _, causeAtEntry_code _ _,
    fun c hc hk hm => ?_, causeAtEntry_ce _ _, causeAtEntry_bd _ _, causeAtEntry_kept _ _, rfl, ?_, vector_eq _ r, rfl, rfl,
    fun _ => rfl, ⟨rfl, rfl⟩, rfl, rfl, ⟨rfl, rfl, rfl, rfl, rfl⟩, rfl, rfl, rfl⟩
  · rw [exec_writeback i ha, wbStage, hr]
  · refine ((causeAtEntry_code _ _).trans (code_eq hk hm)).trans ?_
    fin_cases hc <;> rfl
  · simp only [takeException_badVAddr, hasAddress_iff]

end Sys2Proof.Machine
end

section
/-! O42. The record that WB takes: the first of those of highest priority, and how the kinds rank
(spec/60_exceptions.md R471 to R473). -/

namespace Sys2Proof.Machine

/-- A record that none after it outranks stays selected. -/
theorem selectFrom_of_le {best : ExcRecord} {recs : List ExcRecord} (h : ∀ q ∈ recs, best.rank ≤ q.rank) :
    selectFrom best recs = best := by
  induction recs with
  | nil => rfl
  | cons q qs ih =>
    obtain ⟨hq, hqs⟩ := List.forall_mem_cons.mp h
    rw [selectFrom, if_neg (Nat.not_lt.mpr hq)]
    exact ih hqs

/-- A record that outranks all before it, and that none after it outranks, is selected. -/
theorem selectFrom_append {r : ExcRecord} {after : List ExcRecord} (hafter : ∀ q ∈ after, r.rank ≤ q.rank)
    {before : List ExcRecord} (hbefore : ∀ q ∈ before, r.rank < q.rank) {best : ExcRecord} (hbest : r.rank < best.rank) :
    selectFrom best (before ++ r :: after) = r := by
  induction before generalizing best with
  | nil =>
    rw [List.nil_append, selectFrom, if_pos hbest]
    exact selectFrom_of_le hafter
  | cons q qs ih =>
    obtain ⟨hq, hqs⟩ := List.forall_mem_cons.mp hbefore
    rw [List.cons_append, selectFrom]
    split
    · exact ih hqs hq
    · exact ih hqs hbest

/-- The selected record divides the buffer into what it outranks and what does not outrank it. -/
theorem selectFrom_split (recs : List ExcRecord) : ∀ best : ExcRecord, ∃ before after,
    best :: recs = before ++ selectFrom best recs :: after ∧ (∀ q ∈ before, (selectFrom best recs).rank < q.rank) ∧
      ∀ q ∈ after, (selectFrom best recs).rank ≤ q.rank := by
  induction recs with
  | nil => exact fun best => ⟨[], [], rfl, nofun, nofun⟩
  | cons x xs ih =>
    intro best
    rw [selectFrom]
    split
    · rename_i hlt
      obtain ⟨before, after, hsplit, hbefore, hafter⟩ := ih x
      have hx : (selectFrom x xs).rank ≤ x.rank := by
        have hmem : x ∈ before ++ selectFrom x xs :: after := hsplit ▸ List.mem_cons_self
        rcases List.mem_append.mp hmem with h | h
        · exact (hbefore x h).le
        · rcases List.mem_cons.mp h with h | h
          · exact (congrArg ExcRecord.rank h).ge
          · exact hafter x h
      exact ⟨best :: before, after, by rw [hsplit]; rfl, List.forall_mem_cons.mpr ⟨hx.trans_lt hlt, hbefore⟩, hafter⟩
    · rename_i hge
      obtain ⟨before, after, hsplit, hbefore, hafter⟩ := ih best
      cases before with
      | nil =>
        obtain ⟨hbest, rfl⟩ := List.cons.inj hsplit
        rw [← hbest] at hafter ⊢
        exact ⟨[], x :: xs, rfl, nofun, List.forall_mem_cons.mpr ⟨Nat.not_lt.mp hge, hafter⟩⟩
      | cons b bs =>
        obtain ⟨rfl, hxs⟩ := List.cons.inj hsplit
        obtain ⟨hbest, hbs⟩ := List.forall_mem_cons.mp hbefore
        refine ⟨best :: x :: bs, after, congrArg (fun l => best :: x :: l) hxs, ?_, hafter⟩
        exact List.forall_mem_cons.mpr ⟨hbest, List.forall_mem_cons.mpr ⟨hbest.trans_le (Nat.not_lt.mp hge), hbs⟩⟩

/-- Settles O42: the selection is the first record of least rank, and the ranks are those of the table. -/
theorem prioritySelection : Obligations.PrioritySelection := by
  refine ⟨fun recs r => ⟨fun h => ?_, ?_⟩, fun v f z => ?_, fun k hk v w => ?_⟩
  · cases recs with
    | nil => cases h
    | cons b bs =>
      obtain ⟨before, after, hsplit⟩ := selectFrom_split bs b
      cases h
      exact ⟨before, after, hsplit⟩
  · rintro ⟨before, after, rfl, hbefore, hafter⟩
    cases before with
    | nil => exact congrArg some (selectFrom_of_le hafter)
    | cons b bs =>
      obtain ⟨hb, hbs⟩ := List.forall_mem_cons.mp hbefore
      exact congrArg some (selectFrom_append hafter hbs hb)
  · have ranks : List.Pairwise (· < ·) [10, 20, 30, 40, 41, 42, 43, 44, 45, 50, 60, 70, 80, 90] := by decide
    exact (List.pairwise_map (f := ExcRecord.rank)).mp ranks
  · fin_cases hk <;> rfl

end Sys2Proof.Machine
end

section
/-! O43. When an interrupt is requested, and what it does to an instruction alone in the pipeline (spec/60_exceptions.md R461
to R463, R470): sampled in MEM of an instruction that EX has not marked and that has no record of its own, Int is the one
record, so that the access is not made and WB enters the handler. -/

namespace Sys2Proof.Machine

/-! ### The request -/

theorem getLsbD_readCause (s : State) {k : Nat} (hk : k < 8) :
    (readCause s).getLsbD (8 + k) = if k < 2 then s.cause.getLsbD (8 + k) else s.env.pins.getLsbD (k - 2) := by
  rw [readCause_eq_append]
  simp only [BitVec.getLsbD_append, BitVec.getLsbD_extractLsb']
  grind

theorem exists_getLsbD_of_ne_zero {n : Nat} {x : BitVec n} : x ≠ 0#n ↔ ∃ k < n, x.getLsbD k = true := by
  refine ⟨fun h => ?_, fun ⟨k, _, hk⟩ h => by simp [h] at hk⟩
  by_contra hno
  exact h (BitVec.eq_of_getLsbD_eq fun k hk => by simpa using fun e => hno ⟨k, hk, e⟩)

/-- An interrupt is requested if IEc and some bit of IP and the same bit of IM are set (R461). -/
theorem intCond_iff_readCause (s : State) : intCond s = true ↔
    s.sr.getLsbD 0 = true ∧ ∃ k < 8, (readCause s).getLsbD (8 + k) = true ∧ s.sr.getLsbD (8 + k) = true := by
  have hbits : ((readCause s).extractLsb' 8 8 &&& s.sr.extractLsb' 8 8) ≠ 0#8 ↔
      ∃ k < 8, (readCause s).getLsbD (8 + k) = true ∧ s.sr.getLsbD (8 + k) = true := by
    rw [exists_getLsbD_of_ne_zero]
    refine exists_congr fun k => and_congr_right fun hk => ?_
    simp [hk]
  rw [← hbits]
  simp [intCond, State.interruptsEnabled]

/-- IP[1:0] are bits of Cause, IP[7:2] the pins (R54, R461). -/
theorem intCond_iff (s : State) : intCond s = true ↔ s.sr.getLsbD 0 = true ∧
    ((∃ k < 2, s.cause.getLsbD (8 + k) = true ∧ s.sr.getLsbD (8 + k) = true) ∨
      ∃ k < 6, s.env.pins.getLsbD k = true ∧ s.sr.getLsbD (10 + k) = true) := by
  rw [intCond_iff_readCause]
  refine and_congr_right fun _ => ⟨fun ⟨k, hk, hip, him⟩ => ?_, ?_⟩
  · rw [getLsbD_readCause s hk] at hip
    split at hip
    · exact .inl ⟨k, ‹_›, hip, him⟩
    · exact .inr ⟨k - 2, by omega, hip, by rwa [show 10 + (k - 2) = 8 + k by omega]⟩
  · rintro (⟨k, hk, hip, him⟩ | ⟨k, hk, hip, him⟩)
    · exact ⟨k, by omega, by rwa [getLsbD_readCause s (by omega), if_pos hk], him⟩
    · refine ⟨k + 2, by omega, ?_, by rwa [show 8 + (k + 2) = 10 + k by omega]⟩
      rwa [getLsbD_readCause s (by omega), if_neg (by omega)]

/-! ### Work that is not done -/

/-- CACHE that holds a record, and whose translation adds none, does not issue (R397). -/
theorem cacheWork_record {op : Nat} {s : State} (hi : s.pipe.mem.memIssued = false) (he : s.pipe.mem.exc ≠ [])
    (hrecs : (addressTranslateUnchecked s s.pipe.mem.ea .load).recs = []) : cacheWork op s = .done s := by
  unfold cacheWork
  dsimp only
  rw [hi, if_neg nofun, hrecs, raiseMem_nil, if_pos he]

/-- Stores at aligned addresses that pass their translation have no records. -/
theorem storeRecs_eq_nil {s : State} {bad : Word} {items : List StoreItem}
    (h : ∀ x ∈ items, aligned x.va x.width = true ∧ ∃ q d, reaches s x.va .store q d) : storeRecs s bad items = [] := by
  refine List.flatMap_eq_nil_iff.mpr fun x hx => ?_
  obtain ⟨ha, q, d, hr⟩ := h x hx
  rw [alignCheck_aligned ha, reaches_bad hr bad]
  rfl

/-! ### The passage of an interrupted instruction -/

/-- The record of an interrupt (R462). -/
def intRecord : ExcRecord := { kind := .int, mode := .any }

/-- The snapshot with that record alone. -/
def Snapshot.interrupted (x : Snapshot) : Snapshot := { x with exc := [intRecord] }

section
variable {i : Instr} {s : State} {p : Word} (hi : intCond s = true) (hs : s.intShadow = false)
include hi hs

/-- An instruction alone that EX leaves without record and mark, having changed no more than the fetch register and the
count of draws, takes Int if its MEM work, given that record, does nothing. -/
theorem traps_int {n : Option (BitVec 2)} {compute : State → Snapshot → Snapshot} {effect : Snapshot → State → Out}
    {work : State → MemWork} {x y : Snapshot} {v : Word} {k : Nat}
    (hexec : exec i = stages (decodeOut i) n compute effect (memStep false work)) (hc : copCheck s n = [])
    (hx : compute (atEx s (idSnapshot p (encode i) (decodeOut i) [])) (executing i s p) = x) (he : x.exc = [])
    (hf : effect x (atEx s x) = .next (atEx { s with pc := v, draws := k } y))
    (hy : y.pc = p ∧ y.exc = [] ∧ y.exSideEffect = false ∧ y.memIssued = false)
    (hw : work (atMem { s with pc := v, draws := k } y.interrupted) =
      .done (atMem { s with pc := v, draws := k } y.interrupted)) :
    traps i s p intRecord := by
  obtain ⟨hpc, hexc, hside, hissued⟩ := hy
  let s' : State := { s with pc := v, draws := k }
  have hi' : intCond (atMem s' y) = true := hi
  have hraise : y.raise [intRecord] = y.interrupted := by rw [Snapshot.raise, hexc]; rfl
  have hsample : sampleInterrupt (atMem s' y) = atMem s' y.interrupted := by
    rw [← hraise, sampleInterrupt, hi', if_pos (by simp [atMem, s', hs, hside, hissued])]
    rfl
  have hmem : memStep false work (atMem s' y) = .next (atMem { s' with intShadow := false } y.interrupted) := by
    rw [memStep, hsample, hw]
    simp [atMem, s', hs]
  have hx : compute (atEx s (idSnapshot p (encode i) (decodeOut i) []))
      (resolved (atEx s (idSnapshot p (encode i) (decodeOut i) []))) = x := (congrArg _ (resolved_id ..)).trans hx
  refine ⟨_, ?_, tookException_takeException s' y.interrupted false p intRecord⟩
  rw [runsTo, runAlone, hexec, passAlone_stages, hc, exStage_alone _ _ _ _ (by rw [hx]; exact he), hx, hf, andThen_next,
    advance_atEx, hmem, andThen_next, ← hpc]
  exact wbStage_alone_record { s' with intShadow := false } y.interrupted intRecord rfl

/-- Register and immediate instructions, MFHI and MFLO. -/
theorem Computes.interrupted {rd : Reg} {compute : State → Snapshot → Snapshot} (h : Computes i rd compute) {v : Word}
    (hv : compute (atEx s (idSnapshot p (encode i) (decodeOut i) [])) (executing i s p) = { executing i s p with result := v }) :
    traps i s p intRecord :=
  traps_int hi hs (work := noAccess) h.exec rfl hv rfl (v := s.pc) (k := s.draws) rfl ⟨rfl, rfl, rfl, rfl⟩ rfl

/-- ADD, SUB and ADDI in range, `z` the exact result. -/
theorem Computes.interrupted_inRange {rd : Reg} {f : Word → Word → Word} {overflow : Word → Word → Bool}
    (h : Computes i rd (trapOf f overflow)) {z : Int}
    (ho : overflow (executing i s p).valA (executing i s p).valB = true ↔ z < -2 ^ 31 ∨ 2 ^ 31 ≤ z) (hlo : -2 ^ 31 ≤ z)
    (hhi : z < 2 ^ 31) : traps i s p intRecord := by
  have hno : ¬ overflow (executing i s p).valA (executing i s p).valB = true := fun e => by
    have := ho.mp e
    omega
  refine h.interrupted hi hs (v := f (executing i s p).valA (executing i s p).valB) ?_
  rw [trapOf, if_neg hno, Snapshot.raise_nil]
  rfl

/-- Branches and jumps: the fetch register goes to the handler whether it was redirected or not. -/
theorem Transfers.interrupted {compute : State → Snapshot → Snapshot} {taken : Snapshot → Bool} {target : Snapshot → Word}
    (h : Transfers i compute taken target) : traps i s p intRecord :=
  traps_int hi hs (work := noAccess) h.exec rfl (h.onlyResult _ _) rfl (transferIf_atEx ..) ⟨rfl, rfl, rfl, rfl⟩ rfl

/-- Loads, stores and CACHE whose work does nothing once there is a record. -/
theorem IsAccess.interrupted {base : Reg} {off : BitVec 16} {n : Option (BitVec 2)} {work : State → MemWork}
    (h : IsAccess i base off n work) (hc : copCheck s n = [])
    (hw : work (atMem s (accessing i s p).interrupted) =
      .done (atMem s (accessing i s p).interrupted)) : traps i s p intRecord :=
  traps_int hi hs h.exec hc (x := accessing i s p) rfl rfl (v := s.pc) (k := s.draws) rfl ⟨rfl, rfl, rfl, rfl⟩ hw

/-- A load whose checks pass. -/
theorem IsLoad.interrupted {base rt : Reg} {off : BitVec 16} {place : Word → Word} {w : Width}
    {extend : Endian → Word → Word → Word → Word} (h : IsLoad i base rt off place w extend) {ea pa : Word} {c : Bool}
    (hea : ea = readGpr s base + off.signExtend 32) (hr : reaches s (place ea) .load pa c) (ha : aligned (place ea) w = true) :
    traps i s p intRecord := by
  refine h.toIsAccess.interrupted hi hs rfl ?_
  have hrecs : alignCheck (place ea) w .load ++ (addressTranslate s (place ea) ea .load).recs = [] := by
    rw [alignCheck_aligned ha, reaches_bad hr ea]
    rfl
  have hw := memRead_faulted (s := atMem s (accessing i s p).interrupted) (va := place ea) (bad := ea) (w := w)
    (List.append_ne_nil_of_left_ne_nil (List.cons_ne_nil _ _) _)
  rw [show alignCheck (place ea) w .load ++ (addressTranslate (atMem s _) (place ea) ea .load).recs = [] from hrecs,
    raiseMem_nil, hea, ← h.ea s p] at hw
  exact loadWork_faulted hw

/-- A store whose checks pass. -/
theorem IsStore.interrupted {base rt : Reg} {off : BitVec 16} {items : Endian → Word → Word → List StoreItem}
    (h : IsStore i base rt off items) {ea : Word} (hea : ea = readGpr s base + off.signExtend 32)
    (hrecs : storeRecs s ea (items s.cfg.endian ea (readGpr s rt)) = []) : traps i s p intRecord := by
  refine h.toIsAccess.interrupted hi hs rfl ?_
  have hw := memWrite_faulted (s := atMem s (accessing i s p).interrupted) (bad := ea)
    (items := items s.cfg.endian ea (readGpr s rt)) (List.append_ne_nil_of_left_ne_nil (List.cons_ne_nil _ _) _)
  rw [show storeRecs (atMem s _) ea _ = [] from hrecs, raiseMem_nil, hea, ← h.ea s p, ← h.data s p] at hw
  exact storeWork_faulted hw

theorem mfc0_interrupted {rt : Reg} {n : Nat} (hc : copAllowed s 0#2 = true) (hn : n ∉ [0, 1, 2, 4, 10]) :
    traps (.mfc0 rt n) s p intRecord := by
  have hf : ∃ v k, ∀ x, mfc0Effect n x (atEx s x) = .next (atEx { s with draws := k } { x with result := v }) := by
    unfold mfc0Effect
    cases hread : cp0Read s n with
    | value v => exact ⟨v, s.draws, fun x => by rw [show cp0Read (atEx s x) n = _ from hread]; rfl⟩
    | draw => exact ⟨Config.freeWord s.draws, s.draws + 1, fun x => by rw [show cp0Read (atEx s x) n = _ from hread]; rfl⟩
    | tlb => grind [cp0Read]
  obtain ⟨v, k, hf⟩ := hf
  exact traps_int hi hs (work := noAccess) rfl (copCheck_allowed hc) rfl rfl (v := s.pc) (k := k) (hf _) ⟨rfl, rfl, rfl, rfl⟩ rfl

theorem mtc0_interrupted {rt : Reg} {n : Nat} (hc : copAllowed s 0#2 = true) (hn : n ∉ [0, 1, 2, 4, 10, 12, 13]) :
    traps (.mtc0 rt n) s p intRecord := by
  have hf : ∀ x, mtc0Effect n x (atEx s x) = .next (atEx s x) := by
    intro x
    have hw : cp0Write (atEx s x) n x.valB = .ignored := by grind [cp0Write]
    rw [mtc0Effect, hw]
  exact traps_int hi hs (work := noAccess) rfl (copCheck_allowed hc) rfl rfl (v := s.pc) (k := s.draws) (hf _)
    ⟨rfl, rfl, rfl, rfl⟩ rfl

theorem cache_interrupted {base : Reg} {op : Nat} {off : BitVec 16} (hc : copAllowed s 0#2 = true)
    (hrecs : (addressTranslateUnchecked s (readGpr s base + off.signExtend 32) .load).recs = []) :
    traps (.cache base op off) s p intRecord := by
  have h := isAccess_cache base op off
  rw [← h.ea s p] at hrecs
  exact h.interrupted hi hs (copCheck_allowed hc) (cacheWork_record rfl (List.cons_ne_nil _ _) hrecs)

end

/-- SWL and SWR, every byte of whose word passes its translation. -/
theorem IsMerge.interrupted {i : Instr} {base rt : Reg} {off : BitVec 16} {bytes : Endian → Nat → List (Nat × Nat)} {s : State}
    (h : IsMerge i base rt off bytes) (hi : intCond s = true) (hs : s.intShadow = false) (p : Word) {ea : Word}
    (hea : ea = readGpr s base + off.signExtend 32)
    (hr : ∀ k < 4, ∃ q d, reaches s (alignedWord ea + BitVec.ofNat 32 k) .store q d) : traps i s p intRecord := by
  refine h.toIsStore.interrupted hi hs hea (storeRecs_eq_nil fun x hx => ?_)
  obtain ⟨y, hy, rfl⟩ := List.mem_map.mp hx
  exact ⟨rfl, hr _ (h.offsets _ _ y hy)⟩

/-- Settles O43: no form of the list is marked in EX, and each one's checks pass, so that Int is the record taken. -/
theorem interruptTaken : Obligations.InterruptTaken := by
  intro s p rs rt rd off target sa n op pa b int ea a
  refine ⟨intCond_iff s, fun hi hs => ?_⟩
  have compute {i r compute} (h : Computes i r compute)
      (hresult : ∀ s x, compute s x = { x with result := (compute s x).result }) : traps i s p int :=
    h.interrupted hi hs (hresult _ _)
  have branch {i taken target} (h : Transfers i noCompute taken target) : traps i s p int := h.interrupted hi hs
  have link {i taken target} (h : Transfers i linkResult taken target) : traps i s p int := h.interrupted hi hs
  have load {i w extend} (h : IsLoad i rs rt off (fun a => a) w extend) (hr : reaches s ea .load pa b)
      (ha : aligned ea w = true) : traps i s p int := h.interrupted hi hs rfl hr ha
  have merge {i extend} (h : IsLoad i rs rt off alignedWord .word extend) (hr : reaches s a .load pa b)
      (ha : aligned a .word = true) : traps i s p int := h.interrupted hi hs rfl hr ha
  have store {i w} (h : IsStore i rs rt off fun _ a r => [{ va := a, width := w, value := r }])
      (hr : reaches s ea .store pa b) (ha : aligned ea w = true) : traps i s p int :=
    h.interrupted hi hs (ea := ea) rfl (storeRecs_single ha hr)
  simp only [List.forall_mem_cons]
  refine ⟨?registers, ?traps, fun hc => ⟨mfc0_interrupted hi hs hc, mtc0_interrupted hi hs hc, cache_interrupted hi hs hc⟩,
    ?accesses, fun hr => ⟨(isMerge_swl rs rt off).interrupted hi hs p rfl hr, (isMerge_swr rs rt off).interrupted hi hs p rfl hr⟩⟩
  case registers =>
    have alu {i r f} (h : Computes i r (resultOf f)) : traps i s p int := compute h fun _ _ => rfl
    exact ⟨alu ⟨rfl, rfl⟩, alu ⟨rfl, rfl⟩, alu ⟨rfl, rfl⟩, alu ⟨rfl, rfl⟩, alu ⟨rfl, rfl⟩, alu ⟨rfl, rfl⟩, alu ⟨rfl, rfl⟩,
      alu ⟨rfl, rfl⟩, alu ⟨rfl, rfl⟩, alu ⟨rfl, rfl⟩, alu ⟨rfl, rfl⟩, alu ⟨rfl, rfl⟩, alu ⟨rfl, rfl⟩, alu ⟨rfl, rfl⟩,
      alu ⟨rfl, rfl⟩, alu ⟨rfl, rfl⟩, alu ⟨rfl, rfl⟩, alu ⟨rfl, rfl⟩, alu ⟨rfl, rfl⟩, alu ⟨rfl, rfl⟩, alu ⟨rfl, rfl⟩,
      compute ⟨rfl, rfl⟩ fun _ _ => rfl, compute ⟨rfl, rfl⟩ fun _ _ => rfl, branch ⟨rfl, fun _ _ => rfl⟩,
      branch ⟨rfl, fun _ _ => rfl⟩, branch ⟨rfl, fun _ _ => rfl⟩, branch ⟨rfl, fun _ _ => rfl⟩, branch ⟨rfl, fun _ _ => rfl⟩,
      branch ⟨rfl, fun _ _ => rfl⟩, link ⟨rfl, fun _ _ => rfl⟩, link ⟨rfl, fun _ _ => rfl⟩, branch ⟨rfl, fun _ _ => rfl⟩,
      link ⟨rfl, fun _ _ => rfl⟩, branch ⟨rfl, fun _ _ => rfl⟩, link ⟨rfl, fun _ _ => rfl⟩, nofun⟩
  case traps =>
    exact ⟨Computes.interrupted_inRange hi hs ⟨rfl, rfl⟩ (overflowAdd_iff _ _),
      Computes.interrupted_inRange hi hs ⟨rfl, rfl⟩ (overflowSub_iff _ _),
      Computes.interrupted_inRange hi hs ⟨rfl, rfl⟩ (toInt_sext16 off ▸ overflowAdd_iff _ _), nofun⟩
  case accesses =>
    exact ⟨load (isLoad_lb _ _ _), load (isLoad_lbu _ _ _), load (isLoad_lh _ _ _), load (isLoad_lhu _ _ _),
      load (isLoad_lw _ _ _), merge (isLoad_lwl _ _ _), merge (isLoad_lwr _ _ _), store (isStore_sb _ _ _),
      store (isStore_sh _ _ _), store (isStore_sw _ _ _), nofun⟩

end Sys2Proof.Machine
end

section
/-! O49, O53. A record stops every side effect (spec/60_exceptions.md R454, R470, R476, spec/20_memory.md R120, R121,
spec/70_reset_and_hazards.md R540, R545): EX with a record changes its own snapshot alone, and the MEM step either adds
records and does nothing, or starts from an empty buffer and leaves it empty. -/

namespace Sys2Proof.Machine

/-! ### EX -/

/-- EX of every instruction computes on its own slot, records added at most, and has its effect under the guard. -/
theorem exec_execute_exStage (i : Instr) : ∃ compute effect,
    (∀ s, KeepsSlot (resolved s) (compute s (resolved s))) ∧ ∀ s, s.active = .execute → exec i s = exStage compute effect s := by
  cases i <;> refine ⟨_, _, ?_, fun s ha => byStage_execute ha _ _ _ _⟩ <;> intro s
  case add | addi | sub => exact keeps_raise s _ _ (keeps_result s _)
  case syscall | brk => exact keeps_raise s _ _ (keeps_resolved s)
  case lb | lbu | lh | lhu | lw | lwl | lwr | sb | sh | sw | swl | swr | cache => exact keeps_address s
  case mult | multu | div | divu | mthi | mtlo | mfc0 | mtc0 | rfe | tlbr | tlbwi | tlbwr | tlbp | cop1 | cop2 | cop3 | lwc1 |
      lwc2 | lwc3 | swc1 | swc2 | swc3 | jr | j | beq | bne | blez | bgtz | bltz | bgez => exact keeps_resolved s
  all_goals exact keeps_result s _

/-- A computation that keeps the records keeps the guard false. -/
theorem exGuard_setEx {s : State} {x : Snapshot} (hx : KeepsSlot (resolved s) x) (hg : exGuard s = false) :
    exGuard (s.setEx x) = false := by
  refine Bool.eq_false_iff.mpr fun h => Bool.eq_false_iff.mp hg ?_
  obtain ⟨hex, hmem⟩ := Bool.and_eq_true_iff.mp (show (x.exc.isEmpty && s.pipe.mem.exc.isEmpty) = true from h)
  have hnil : s.pipe.ex.exc = [] := List.prefix_nil.mp (List.isEmpty_iff.mp hex ▸ hx.exc)
  simp [exGuard, hnil, hmem]

/-- Under a false guard an instruction in EX changes its own snapshot alone (R540). -/
theorem exec_execute_blocked (i : Instr) {s : State} (ha : s.active = .execute) (hg : exGuard s = false) :
    ∃ x, KeepsSlot (resolved s) x ∧ exec i s = .next (s.setEx x) := by
  obtain ⟨compute, effect, hkeeps, hexec⟩ := exec_execute_exStage i
  refine ⟨_, hkeeps s, (hexec s ha).trans ?_⟩
  rcases exStage_cases compute effect s with ⟨h, -⟩ | ⟨-, e⟩
  · exact nomatch h.symm.trans (exGuard_setEx (hkeeps s) hg)
  · exact e

/-- `t` has HI, LO, SR and Cause of `s`. -/
def SameExTargets (s t : State) : Prop := sameHiLo s t ∧ t.sr = s.sr ∧ t.cause = s.cause

/-- An EX effect that writes HI, LO, SR or Cause marks its slot and adds no record (R540). -/
def Marks (effect : Snapshot → State → Out) : Prop := ∀ x u v, effect x u = .next v →
  SameExTargets u v ∨ v.pipe.ex.exSideEffect = true ∧ v.pipe.ex.exc = u.pipe.ex.exc

theorem cp0Write_pipe {s t : State} {n : Nat} {v : Word} (h : cp0Write s n v = .wrote t) : t.pipe = s.pipe := by
  unfold cp0Write at h
  split at h
  · cases h
    rfl
  · split at h
    · cases h
      rfl
    · split at h <;> cases h

theorem marks_mtc0Effect (n : Nat) : Marks (mtc0Effect n) := by
  intro x u v h
  unfold mtc0Effect at h
  split at h <;> cases h
  · rename_i w hw
    refine .inr ⟨rfl, ?_⟩
    rw [markSideEffect_pipe, cp0Write_pipe hw]
  · exact .inl ⟨⟨rfl, rfl⟩, rfl, rfl⟩

theorem marks_divEffect : Marks divEffect := by
  intro x u v h
  unfold divEffect at h
  split at h <;> cases h <;> exact .inr ⟨rfl, rfl⟩

theorem marks_divuEffect : Marks divuEffect := by
  intro x u v h
  unfold divuEffect at h
  split at h <;> cases h <;> exact .inr ⟨rfl, rfl⟩

/-- The effects run under the guard only, so that a slot they mark holds no record. -/
theorem exStage_marks {compute : State → Snapshot → Snapshot} {effect : Snapshot → State → Out} (he : Marks effect) {s t : State}
    (h : exStage compute effect s = .next t) :
    SameExTargets s t ∨ t.pipe.ex.exSideEffect = true ∧ t.pipe.ex.exc = [] := by
  rcases exStage_cases compute effect s with ⟨hg, e⟩ | ⟨-, e⟩
  · refine (he _ _ _ (e.symm.trans h)).imp id fun ⟨hmark, hexc⟩ => ⟨hmark, hexc.trans ?_⟩
    exact List.isEmpty_iff.mp (Bool.and_eq_true_iff.mp hg).1
  · cases e.symm.trans h
    exact .inl ⟨⟨rfl, rfl⟩, rfl, rfl⟩

/-- An instruction that writes HI, LO, SR or Cause in EX is marked, holds no record and accesses nothing in MEM. -/
theorem exec_execute_marks (i : Instr) {s t : State} (ha : s.active = .execute) (h : exec i s = .next t) :
    SameExTargets s t ∨ (t.pipe.ex.exSideEffect = true ∧ t.pipe.ex.exc = []) ∧
      ∀ u, u.active = .memory → ∃ isRfe, exec i u = memStep isRfe noAccess u := by
  cases i <;> replace h := (byStage_execute ha _ _ _ _).symm.trans h
  case lb | lbu | lh | lhu | lw | lwl | lwr | sb | sh | sw | swl | swr | cache =>
    cases (exStage_noEffect _ s).symm.trans h
    exact .inl ⟨⟨rfl, rfl⟩, rfl, rfl⟩
  all_goals refine (exStage_marks ?_ h).imp id fun hm => ⟨hm, fun u hu => ⟨_, byStage_memory hu _ _ _ _⟩⟩
  case div => exact marks_divEffect
  case divu => exact marks_divuEffect
  case mtc0 => exact marks_mtc0Effect _
  case mult | multu | mthi | mtlo | rfe =>
    intro x u v e
    cases e
    exact .inr ⟨rfl, rfl⟩
  case jr | jalr | bltz | bgez | bltzal | bgezal | j | jal | beq | bne | blez | bgtz =>
    intro x u v e
    rw [transferIf_writes e]
    exact .inl ⟨⟨rfl, rfl⟩, rfl, rfl⟩
  case mfc0 =>
    intro x u v e
    rw [mfc0Effect_writes e]
    exact .inl ⟨⟨rfl, rfl⟩, rfl, rfl⟩
  case tlbr | tlbwi | tlbwr | tlbp | cop1 | cop2 | cop3 | lwc1 | lwc2 | lwc3 | swc1 | swc2 | swc3 => exact fun _ _ _ e => nomatch e
  all_goals
    intro x u v e
    cases e
    exact .inl ⟨⟨rfl, rfl⟩, rfl, rfl⟩

/-! ### MEM -/

theorem raiseMem_raiseMem (s : State) (r q : List ExcRecord) : (s.raiseMem r).raiseMem q = s.raiseMem (r ++ q) := by
  simp [State.raiseMem, State.setMem, Snapshot.raise]

/-- The access `a` of the MEM step from `s` only adds records, or finds none and leaves the slots as they are. -/
def RaisesOrAccesses (s : State) (a : Access) : Prop :=
  (∃ recs, a = .faulted (s.raiseMem recs)) ∨
    s.pipe.mem.exc = [] ∧ ((∃ t, a = .stall t) ∨ ∃ v t, a = .done v t ∧ t.pipe = s.pipe)

theorem readAt_raises (s : State) (he : s.pipe.mem.exc = []) (pa : Word) (c : Bool) (w : Width) (bad : Word) :
    RaisesOrAccesses s (readAt s pa c w bad) := by
  unfold readAt
  split
  · split
    · exact .inr ⟨he, .inl ⟨_, rfl⟩⟩
    · rename_i t e
      obtain ⟨rfl, -⟩ := cacheReady_true e
      exact .inr ⟨he, .inr ⟨_, _, rfl, (cacheRead_keeps t .dcache pa w).pipe⟩⟩
  · split
    · exact .inr ⟨he, .inr ⟨_, _, rfl, (mapperFetch_keeps s pa w .dcache).pipe⟩⟩
    · exact .inl ⟨_, rfl⟩

theorem memRead_raises (s : State) (va bad : Word) (w : Width) : RaisesOrAccesses s (memRead s va bad w) := by
  by_cases h : s.pipe.mem.exc ++ (alignCheck va w .load ++ (addressTranslate s va bad .load).recs) = []
  · obtain ⟨he, hrecs⟩ := List.append_eq_nil_iff.mp h
    unfold memRead
    dsimp only
    rw [hrecs, raiseMem_nil, if_neg (not_not.mpr he)]
    split
    · exact .inl ⟨[], by rw [raiseMem_nil]⟩
    · exact readAt_raises s he _ _ _ _
  · exact .inl ⟨_, memRead_faulted h⟩

theorem memWrite_raises (s : State) (bad : Word) (items : List StoreItem) : RaisesOrAccesses s (memWrite s bad items) := by
  by_cases h : s.pipe.mem.exc ++ storeRecs s bad items = []
  · obtain ⟨he, hrecs⟩ := List.append_eq_nil_iff.mp h
    rw [memWrite_reaches he hrecs]
    unfold writeAt
    split
    · have hready := (storesReady_keeps (items.map (storeTarget s bad)) s).pipe
      split <;> rename_i e <;> rw [e] at hready
      · exact .inr ⟨he, .inl ⟨_, rfl⟩⟩
      · exact .inr ⟨he, .inr ⟨_, _, rfl, (storeAll_keeps _ _).pipe.trans hready⟩⟩
    · exact .inl ⟨_, rfl⟩
  · exact .inl ⟨_, memWrite_faulted h⟩

/-- The MEM work `work` of an instruction that has issued nothing only adds records, or finds none and leaves none
(R120, R121, R454). -/
def RaisesOrWorks (work : State → MemWork) : Prop := ∀ s, s.pipe.mem.memIssued = false →
  (∃ recs, work s = .done (s.raiseMem recs)) ∨
    s.pipe.mem.exc = [] ∧ ((∃ t, work s = .stall t) ∨ ∃ t, work s = .done t ∧ t.pipe.mem.exc = [])

theorem noAccess_raises : RaisesOrWorks noAccess := fun s _ => .inl ⟨[], by rw [raiseMem_nil]; rfl⟩

theorem loadWork_raises {read : State → Access} {extend : State → Snapshot → Word → Word}
    (hr : ∀ s, RaisesOrAccesses s (read s)) : RaisesOrWorks (loadWork read extend) := by
  intro s _
  rcases hr s with ⟨recs, e⟩ | ⟨he, ⟨t, e⟩ | ⟨v, t, e, hpipe⟩⟩
  · exact .inl ⟨recs, loadWork_faulted e⟩
  · exact .inr ⟨he, .inl ⟨t, loadWork_stall e⟩⟩
  · exact .inr ⟨he, .inr ⟨_, loadWork_done e, (congrArg (fun q : Pipeline => q.mem.exc) hpipe).trans he⟩⟩

theorem storeWork_raises {write : State → Access} (hw : ∀ s, RaisesOrAccesses s (write s)) :
    RaisesOrWorks (storeWork write) := by
  intro s _
  rcases hw s with ⟨recs, e⟩ | ⟨he, ⟨t, e⟩ | ⟨v, t, e, hpipe⟩⟩
  · exact .inl ⟨recs, storeWork_faulted e⟩
  · exact .inr ⟨he, .inl ⟨t, storeWork_stall e⟩⟩
  · exact .inr ⟨he, .inr ⟨_, storeWork_done e, (congrArg (fun q : Pipeline => q.mem.exc) hpipe).trans he⟩⟩

theorem cacheIssue_raises (op : Nat) (pa : Word) {s : State} (he : s.pipe.mem.exc = []) :
    (∃ t, cacheIssue op pa s = .stall t) ∨ ∃ t, cacheIssue op pa s = .done t ∧ t.pipe.mem.exc = [] := by
  unfold cacheIssue
  split
  · exact .inr ⟨s, rfl, he⟩
  · rename_i c ht
    split
    · exact .inr ⟨s, rfl, he⟩
    · split
      · exact .inl ⟨s, rfl⟩
      · rename_i hidle
        dsimp only
        split
        · exact .inl ⟨_, rfl⟩
        · refine .inr ⟨_, rfl, ?_⟩
          exact (congrArg (fun q : Pipeline => q.mem.exc) (perform_keeps ht (not_not.mp hidle) pa).pipe).trans he

theorem cacheWork_raises (op : Nat) : RaisesOrWorks (cacheWork op) := by
  intro s hi
  unfold cacheWork
  rw [hi, if_neg nofun]
  dsimp only
  split
  · exact .inl ⟨_, rfl⟩
  · rename_i hexc
    split
    · exact .inl ⟨_, rfl⟩
    · obtain ⟨he, hrecs⟩ := List.append_eq_nil_iff.mp (not_not.mp hexc)
      rw [hrecs, raiseMem_nil]
      exact .inr ⟨he, cacheIssue_raises op _ he⟩

/-- The interrupt sample adds at most one record. -/
theorem sampleInterrupt_raises (s : State) : ∃ recs, sampleInterrupt s = s.raiseMem recs := by
  unfold sampleInterrupt
  split
  · exact ⟨_, rfl⟩
  · exact ⟨[], (raiseMem_nil s).symm⟩

/-- The outcome `o` of a MEM step from `s` is that records are added and nothing else is done, without a stall; or there
were none before it, and there are none after it unless it stalls. -/
def RaisesOrEndsClean (s : State) (o : Out) : Prop :=
  (∃ recs b, o = .next { s.raiseMem recs with stall := false, intShadow := b }) ∨
    s.pipe.mem.exc = [] ∧ ∃ t, o = .next t ∧ (t.stall = true ∨ t.pipe.mem.exc = [])

theorem memStep_raises (isRfe : Bool) {work : State → MemWork} (hw : RaisesOrWorks work) {s : State}
    (hi : s.pipe.mem.memIssued = false) : RaisesOrEndsClean s (memStep isRfe work s) := by
  obtain ⟨pre, hsample⟩ := sampleInterrupt_raises s
  unfold memStep
  rw [hsample]
  rcases hw (s.raiseMem pre) hi with ⟨recs, e⟩ | ⟨he, ⟨t, e⟩ | ⟨t, e, ht⟩⟩ <;> rw [e]
  · exact .inl ⟨pre ++ recs, _, by rw [raiseMem_raiseMem]⟩
  · exact .inr ⟨(List.append_eq_nil_iff.mp he).1, _, rfl, .inl rfl⟩
  · exact .inr ⟨(List.append_eq_nil_iff.mp he).1, _, rfl, .inr ht⟩

theorem exec_memory_raises (i : Instr) {s : State} (ha : s.active = .memory) (hi : s.pipe.mem.memIssued = false) :
    RaisesOrEndsClean s (exec i s) := by
  have step {isRfe : Bool} {work : State → MemWork} (hw : RaisesOrWorks work) (he : exec i s = memStep isRfe work s) :
      RaisesOrEndsClean s (exec i s) := he ▸ memStep_raises isRfe hw hi
  cases i
  case lb | lbu | lh | lhu | lw | lwl | lwr =>
    exact step (loadWork_raises fun t => memRead_raises t _ _ _) (byStage_memory ha _ _ _ _)
  case sb | sh | sw | swl | swr => exact step (storeWork_raises fun t => memWrite_raises t _ _) (byStage_memory ha _ _ _ _)
  case cache => exact step (cacheWork_raises _) (byStage_memory ha _ _ _ _)
  all_goals exact step noAccess_raises (byStage_memory ha _ _ _ _)

/-- Settles O49: the guard of EX and the checks of MEM ask for an empty buffer. -/
theorem recordsBlockEffects : Obligations.RecordsBlockEffects := by
  refine ⟨fun i s ha hg => ?_, fun i s ha he hi => ?_⟩
  · obtain ⟨x, hx, hexec⟩ := exec_execute_blocked i ha hg
    exact ⟨x, hexec, hx.exSideEffect, hx.exc, hx.pc⟩
  · rcases exec_memory_raises i ha hi with ⟨recs, b, hexec⟩ | ⟨hnil, -⟩
    · exact ⟨_, hexec, rfl, rfl, rfl, ⟨rfl, rfl, rfl, rfl, rfl⟩, rfl, ⟨rfl, rfl⟩, ⟨rfl, rfl, rfl, rfl, rfl⟩, rfl, rfl⟩
    · exact absurd hnil he

/-! ### The passage -/

/-- The state in which MEM works, the EX slot's instruction of `s` moved there. -/
def enterMem (s : State) : State := { advance s with active := .memory, stall := false }

/-- Alone, an instruction that does not stall passes ID, EX, MEM and WB. -/
theorem runsTo_unstalled {i : Instr} {s t : State} {p : Word} (h : runsTo i s p t) (ht : t.stall = false) :
    ∃ b c, exec i (atEx s (checked i s p)) = .next b ∧ exec i (enterMem b) = .next c ∧ c.stall = false ∧
      wbStage { advance c with active := .writeback } = .next t := by
  obtain ⟨a, hid, hadv⟩ := decodeStep_alone (decodeOut i) (copCheck s (copNeeded i)) s p (encode i)
  rw [runsTo, runAlone, passAlone, exec_decode i rfl] at h
  rw [show idStage i _ = .next a from hid, andThen_next, hadv] at h
  obtain ⟨b, hb, h⟩ := andThen_eq_next h
  obtain ⟨c, hc, h⟩ := andThen_eq_next h
  refine ⟨b, c, hb, hc, ?_⟩
  split at h <;> rename_i hstall
  · cases h
    exact nomatch hstall.symm.trans ht
  · rw [exec_writeback i rfl] at h
    exact ⟨Bool.eq_false_iff.mpr hstall, h⟩

/-- An instruction alone that leaves MEM with a record has had no effect: what EX may have written it would have been
marked for, so that no record could follow, and an access would have left none. -/
theorem tookException_of_record {i : Instr} {s b c : State} {p : Word} {r : ExcRecord}
    (hex : exec i (atEx s (checked i s p)) = .next b) (hmem : exec i (enterMem b) = .next c) (hstall : c.stall = false)
    (hr : selectRecord c.pipe.mem.exc = some r) :
    tookException s (takeException { advance c with active := .writeback } c.pipe.mem.pc r) p r := by
  have hrec : c.pipe.mem.exc ≠ [] := fun he => nomatch (congrArg selectRecord he).symm.trans hr
  have f := exec_execute_frame i rfl hex
  obtain ⟨hpc, -, -, -, hissued, -⟩ := f.slotEx
  have g := exec_memory_frame i rfl hmem
  have hdata : c.mem = b.mem ∧ c.devLog = b.devLog ∧ c.icache = b.icache ∧ c.dcache = b.dcache := by
    rcases exec_memory_raises i (s := enterMem b) rfl hissued with ⟨recs, d, e⟩ | ⟨-, t, e, ht⟩ <;> cases hmem.symm.trans e
    · exact ⟨rfl, rfl, rfl, rfl⟩
    · exact ht.elim (fun ht => nomatch hstall.symm.trans ht) fun ht => absurd ht hrec
  obtain ⟨hm, hlog, hicache, hdcache⟩ := hdata
  have hsame : SameExTargets s b := by
    refine (exec_execute_marks i rfl hex).resolve_right fun ⟨⟨hmark, hnil⟩, hpass⟩ => hrec ?_
    obtain ⟨isRfe, hpass⟩ := hpass (enterMem b) rfl
    rw [hpass, memStep, sampleInterrupt_none _ (.inl hmark)] at hmem
    cases hmem
    exact hnil
  obtain ⟨⟨hhi, hlo⟩, hsr, hcause⟩ := hsame
  have hsr : c.sr = s.sr := g.sr.trans hsr
  have hmem : c.mem = s.mem := hm.trans f.mem
  exact ⟨congrArg pushStatus hsr, congrArg (causeAtEntry · r) (g.cause.trans hcause), g.slotMem.1.trans hpc,
    congrArg (fun v => if r.hasAddress then r.badVAddr else v) (g.badVAddr.trans f.badVAddr),
    congrArg (fun v : Word => vector (v.getLsbD 22) r) hsr, rfl, rfl, readGpr_congr (g.gpr.trans f.gpr),
    ⟨g.hi.trans hhi, g.lo.trans hlo⟩, ⟨fun a => congrArg (Memory.read · a) hmem, hlog.trans f.devLog⟩,
    ⟨hicache.trans f.icache, hdcache.trans f.dcache, g.bus.trans f.bus, g.requests.trans f.requests, g.env.trans f.env⟩,
    g.cycle.trans f.cycle, g.cfg.trans f.cfg, g.halted.trans f.halted, g.loadUseEvents.trans f.loadUseEvents⟩

/-- Settles O53: WB takes the record selected, and then nothing else has happened, or commits, and then no record was
left. -/
theorem effectOrException : Obligations.EffectOrException := by
  intro i s t p hrun ht
  obtain ⟨b, c, hex, hmem, hstall, hwb⟩ := runsTo_unstalled hrun ht
  rcases wbStage_cases { advance c with active := .writeback } with ⟨r, hr, e⟩ | ⟨hnil, e⟩ <;> cases e.symm.trans hwb
  · exact .inl ⟨r, tookException_of_record hex hmem hstall hr⟩
  · have f := exec_execute_frame i rfl hex
    have g := exec_memory_frame i rfl hmem
    have hpc : c.pipe.mem.pc = p := g.slotMem.1.trans f.slotEx.1
    have hhalts : haltsAt c c.pipe.mem.pc = haltsAt s p := by
      rw [haltsAt, hpc, show c.cfg = s.cfg from g.cfg.trans f.cfg]
      rfl
    refine .inr ⟨(commit_epc _ _).trans (g.epc.trans f.epc), (commit_badVAddr _ _).trans (g.badVAddr.trans f.badVAddr),
      (commit_halted _ _).trans ?_, ?_, ?_⟩
    · exact congrArg₂ (· || ·) (g.halted.trans f.halted) hhalts
    · rw [commit_pipe]
      exact hpc
    · rw [commit_pipe]
      exact hnil

end Sys2Proof.Machine
end

section
/-! O46. A MEM step that stalls holds the pipeline (spec/70_reset_and_hazards.md R543, R544): an access that has to wait
has changed no more than the caches, and was asked for by an instruction without a record. -/

namespace Sys2Proof.Machine

/-! ### Accesses that wait -/

/-- From `s` an access waits in `t`: the instruction in MEM holds no record, and no slot and no byte of memory has
changed. -/
def WaitsIn (s t : State) : Prop := s.pipe.mem.exc = [] ∧ t.pipe = s.pipe ∧ t.mem = s.mem

theorem cacheReady_waits {s t : State} {c : CacheId} {pa : Word} {mode : AccessMode}
    (h : cacheReady s c pa mode = (false, t)) : t.pipe = s.pipe ∧ t.mem = s.mem := by
  obtain ⟨k, rfl, -⟩ := cacheReady_false h
  exact ⟨setCache_pipe s c k, setCache_mem s c k⟩

theorem readAt_waits {s t : State} {pa bad : Word} {c : Bool} {w : Width} (h : readAt s pa c w bad = .stall t) :
    t.pipe = s.pipe ∧ t.mem = s.mem := by
  unfold readAt at h
  split at h
  · split at h <;> cases h
    exact cacheReady_waits ‹_›
  · split at h <;> cases h

theorem memRead_waits {s t : State} {va bad : Word} {w : Width} (h : memRead s va bad w = .stall t) : WaitsIn s t := by
  by_cases hexc : s.pipe.mem.exc ++ (alignCheck va w .load ++ (addressTranslate s va bad .load).recs) = []
  · obtain ⟨he, hrecs⟩ := List.append_eq_nil_iff.mp hexc
    unfold memRead at h
    dsimp only at h
    rw [hrecs, raiseMem_nil, if_neg (not_not.mpr he)] at h
    split at h
    · cases h
    · exact ⟨he, readAt_waits h⟩
  · cases (memRead_faulted hexc).symm.trans h

theorem storesReady_waits {ts : List StoreTarget} {s t : State} (h : storesReady s ts = (false, t)) :
    t.pipe = s.pipe ∧ t.mem = s.mem := by
  induction ts with
  | nil => cases h
  | cons x ts ih =>
    unfold storesReady at h
    split at h
    · split at h
      · cases h
        exact cacheReady_waits ‹_›
      · rename_i u hready
        obtain ⟨rfl, -⟩ := cacheReady_true hready
        exact ih h
    · exact ih h

theorem writeAt_waits {s t : State} {bad : Word} {ts : List StoreTarget} (h : writeAt s bad ts = .stall t) :
    t.pipe = s.pipe ∧ t.mem = s.mem := by
  unfold writeAt at h
  split at h
  · split at h <;> cases h
    exact storesReady_waits ‹_›
  · cases h

theorem memWrite_waits {s t : State} {bad : Word} {items : List StoreItem} (h : memWrite s bad items = .stall t) :
    WaitsIn s t := by
  by_cases hexc : s.pipe.mem.exc ++ storeRecs s bad items = []
  · obtain ⟨he, hrecs⟩ := List.append_eq_nil_iff.mp hexc
    exact ⟨he, writeAt_waits ((memWrite_reaches he hrecs).symm.trans h)⟩
  · cases (memWrite_faulted hexc).symm.trans h

/-! ### The MEM step -/

/-- `t` has the memory of `s`, and its MEM slot but for the mark of an issued operation. -/
def HoldsMem (s t : State) : Prop :=
  t.mem = s.mem ∧ (t.pipe.mem = s.pipe.mem ∨ t.pipe.mem = { s.pipe.mem with memIssued := true })

theorem WaitsIn.holdsMem {s t : State} (h : WaitsIn s t) : HoldsMem s t := by
  obtain ⟨-, hpipe, hmem⟩ := h
  exact ⟨hmem, .inl (congrArg Pipeline.mem hpipe)⟩

/-- The MEM work `work` stalls only for an instruction that holds no record or has issued its operation, and then holds
it (R398, R543). -/
def StallsHolding (work : State → MemWork) : Prop :=
  ∀ s t, work s = .stall t → (s.pipe.mem.exc = [] ∨ s.pipe.mem.memIssued = true) ∧ HoldsMem s t

theorem noAccess_stallsHolding : StallsHolding noAccess := fun _ _ h => nomatch h

theorem loadWork_stallsHolding {read : State → Access} {extend : State → Snapshot → Word → Word}
    (hr : ∀ s t, read s = .stall t → WaitsIn s t) : StallsHolding (loadWork read extend) := by
  intro s t h
  unfold loadWork at h
  split at h <;> cases h
  have hw := hr s t ‹_›
  exact ⟨.inl hw.1, hw.holdsMem⟩

theorem storeWork_stallsHolding {write : State → Access} (hw : ∀ s t, write s = .stall t → WaitsIn s t) :
    StallsHolding (storeWork write) := by
  intro s t h
  unfold storeWork at h
  split at h <;> cases h
  have hw := hw s t ‹_›
  exact ⟨.inl hw.1, hw.holdsMem⟩

/-- CACHE waits before its operation unmarked, and after it marked (R398). -/
theorem cacheIssue_holds {op : Nat} {pa : Word} {s t : State} (h : cacheIssue op pa s = .stall t) : HoldsMem s t := by
  unfold cacheIssue at h
  split at h
  · cases h
  · rename_i c ht
    split at h
    · cases h
    · split at h
      · cases h
        exact ⟨rfl, .inl rfl⟩
      · rename_i hidle
        dsimp only at h
        split at h <;> cases h
        have hpipe := (perform_keeps ht (not_not.mp hidle) pa).pipe
        exact ⟨perform_mem _ s pa, .inr (congrArg (fun q : Pipeline => { q.mem with memIssued := true }) hpipe)⟩

theorem cacheWait_holds {op : Nat} {s t : State} (h : cacheWait op s = .stall t) : HoldsMem s t := by
  unfold cacheWait at h
  split at h
  · cases h
  · split at h <;> cases h
    exact ⟨rfl, .inl rfl⟩

theorem cacheWork_stallsHolding (op : Nat) : StallsHolding (cacheWork op) := by
  intro s t h
  unfold cacheWork at h
  split at h
  · exact ⟨.inr ‹_›, cacheWait_holds h⟩
  · dsimp only at h
    split at h
    · cases h
    · rename_i hexc
      split at h
      · cases h
      · obtain ⟨he, hrecs⟩ := List.append_eq_nil_iff.mp (not_not.mp hexc)
        rw [hrecs, raiseMem_nil] at h
        exact ⟨.inl he, cacheIssue_holds h⟩

/-- The sample adds no record where the work then stalls: an instruction with a record does not, and one that has issued
its operation is not sampled (R462). -/
theorem sampleInterrupt_of_free {s : State}
    (h : (sampleInterrupt s).pipe.mem.exc = [] ∨ (sampleInterrupt s).pipe.mem.memIssued = true) : sampleInterrupt s = s := by
  unfold sampleInterrupt at h ⊢
  split at h
  · rename_i hint
    rcases h with h | h
    · exact absurd (List.append_eq_nil_iff.mp h).2 (List.cons_ne_nil _ _)
    · have h : s.pipe.mem.memIssued = true := h
      simp [h] at hint
  · rename_i hint
    exact if_neg hint

theorem memStep_holds {isRfe : Bool} {work : State → MemWork} (hw : StallsHolding work) {s t : State}
    (h : memStep isRfe work s = .next t) (hstall : t.stall = true) : HoldsMem s t := by
  unfold memStep at h
  split at h <;> cases h
  · obtain ⟨hfree, hold⟩ := hw _ _ ‹_›
    rw [sampleInterrupt_of_free hfree] at hold
    exact hold
  · cases hstall

theorem exec_memory_holds (i : Instr) {s t : State} (ha : s.active = .memory) (h : exec i s = .next t)
    (hstall : t.stall = true) : HoldsMem s t := by
  cases i <;> replace h := (byStage_memory ha _ _ _ _).symm.trans h <;> refine memStep_holds ?_ h hstall
  case lb | lbu | lh | lhu | lw | lwl | lwr => exact loadWork_stallsHolding fun _ _ => memRead_waits
  case sb | sh | sw | swl | swr => exact storeWork_stallsHolding fun _ _ => memWrite_waits
  case cache op _ => exact cacheWork_stallsHolding op
  all_goals exact noAccess_stallsHolding

/-- The MEM work of a slot, whatever word stands in it; a bubble does not stall. -/
theorem runSlot_memory_holds {x : Snapshot} {s t : State} (ha : s.active = .memory) (hs : s.stall = false)
    (h : runSlot x s = .next t) (hstall : t.stall = true) : HoldsMem s t := by
  unfold runSlot at h
  split at h
  · cases h
    cases hs.symm.trans hstall
  · split at h
    · exact exec_memory_holds _ ha h hstall
    · exact memStep_holds noAccess_stallsHolding ((byStage_memory ha _ _ _ _).symm.trans h) hstall

/-- Settles O46: after a stall the cycle adds only WB's bubble to what the MEM step has left. -/
theorem stallHoldsPipeline : Obligations.StallHoldsPipeline := by
  intro s u v hwb hmem hstall
  have f := runSlot_memory (s := { u with active := .memory, stall := false }) rfl hmem
  obtain ⟨hbytes, hslot⟩ := runSlot_memory_holds (s := { u with active := .memory, stall := false }) rfl rfl hmem hstall
  have hcycle : pipelineCycle s = .next (v.setWb bubbleSnapshot) := by
    rw [pipelineCycle, hwb, andThen_next, hmem, andThen_next, afterMem, if_pos hstall]
    rfl
  exact ⟨_, hcycle, f.pc, f.slotEx, f.slotDec, f.slotFetch, rfl, hslot, f.gpr, f.hi, f.lo, f.sr, f.cause, f.epc,
    f.badVAddr, hbytes⟩

end Sys2Proof.Machine
end

section
/-! O54. The first instruction of a run from reset (spec/70_reset_and_hazards.md R522, R530, R580): five cycles bring it to
WB behind words that do nothing, and in each stage it does what it does alone (`State.exIn`, `State.memIn`, `State.wbIn`:
the state of the instruction alone, set in a run). -/

namespace Sys2Proof.Machine

/-! ### A quiet cycle -/

/-- The parameters of reset, a quiet environment, idle caches, and a run that has not ended. -/
def Calm (s : State) : Prop :=
  s.cfg = Config.params ∧ s.env = {} ∧ s.icache.ctrl = .idle ∧ s.dcache.ctrl = .idle ∧ s.halted = false

theorem Calm.congr {s t : State} (h : Calm s) (hcfg : t.cfg = s.cfg) (henv : t.env = s.env) (hicache : t.icache = s.icache)
    (hdcache : t.dcache = s.dcache) (hhalted : t.halted = s.halted) : Calm t := by
  unfold Calm
  rw [hcfg, henv, hicache, hdcache, hhalted]
  exact h

theorem sampleInput_calm {s : State} (h : Calm s) : sampleInput s = s := by
  obtain ⟨-, he, -⟩ := h
  rw [sampleInput_quiet (by rw [he]) (by rw [he]), he]
  show { s with env := {} } = s
  rw [← he]

/-- With the caches idle and no external master at work a cycle is that of the pipeline (R174). -/
theorem cycle_calm {s t : State} (h : pipelineCycle s = .next t) (hs : Calm s) (ht : Calm t) : cycle s = .next (tick t) := by
  obtain ⟨-, he, hicache, hdcache, -⟩ := ht
  rw [cycle, sampleInput_calm hs, h, andThen_next, stepCache_idle (c := .icache) hicache, andThen_next,
    stepCache_idle (c := .dcache) hdcache, andThen_next, he]
  rfl

/-- A cycle that starts without an instruction in WB is not the last of its step. -/
theorem runCycles_calm {s t : State} (hs : s.pipe.wb.bubble = true) (h : cycle s = .next t) (ht : Calm t) (n : Nat) :
    runCycles (n + 1) s = runCycles n t := by
  obtain ⟨-, -, -, -, hh⟩ := ht
  simp [runCycles, h, hs, hh]

/-! ### Fetches of the boot segment -/

/-- kseg1, from which no fetch is cached (R104). -/
def InKseg1 (va : Word) : Prop := 0xA0000000 ≤ va.toNat ∧ va.toNat < 0xC0000000

theorem isDevice_params (pa : Word) : isDevice Config.params pa = false := by
  simp only [isDevice, regionOf, Config.params]
  split
  · rename_i h
    split at h
    · cases h
      rfl
    · split at h <;> cases h
      rfl
  · rfl

/-- Whatever a fetch from kseg1 brings, it fills the IF slot and changes no cache. -/
theorem ifPhase_kseg1 {s : State} (hs : Calm s) (hpc : InKseg1 s.pc) : ∃ x, ifPhase s = fillFetch s x := by
  have hnot : (addressTranslate s s.pc s.pc .fetch).cacheable = false := by
    obtain ⟨hlow, hhigh⟩ := hpc
    rw [addressTranslate, segmentMap_kseg1 hlow hhigh]
    rfl
  obtain ⟨hcfg, -⟩ := hs
  have hfetch : (∃ recs, fetchWord s s.pc = .faulted recs s) ∨ ∃ w, fetchWord s s.pc = .word w s := by
    unfold fetchWord
    dsimp only
    rw [hnot]
    split
    · exact .inl ⟨_, rfl⟩
    · exact .inl ⟨_, rfl⟩
    · rw [if_neg Bool.false_ne_true, mapperFetch_memory (by rw [hcfg]; exact isDevice_params _)]
      split
      · exact .inr ⟨_, rfl⟩
      · exact .inl ⟨_, rfl⟩
  rcases hfetch with ⟨recs, h⟩ | ⟨w, h⟩
  · exact ⟨_, ifPhase_faulted h⟩
  · exact ⟨_, ifPhase_word h⟩

theorem vector_boot_kseg1 (r : ExcRecord) : InKseg1 (vector true r) := by
  rw [vector, if_pos rfl]
  split
  exacts [⟨by decide, by decide⟩, ⟨by decide, by decide⟩]

/-! ### Slots whose word does nothing -/

/-- The NOP word, which a bubble holds too (R39). -/
theorem decode_nop : decode 0#32 = .ok (.sll 0 0 0) := rfl

/-- `s` after a MEM step that accesses nothing: at most the interrupt is a new record of the slot. -/
def State.passed (s : State) (recs : List ExcRecord) (b : Bool) : State :=
  { s.raiseMem recs with stall := false, intShadow := b }

theorem memStep_passes (isRfe : Bool) (s : State) : ∃ recs b, memStep isRfe noAccess s = .next (s.passed recs b) := by
  obtain ⟨recs, hsample⟩ := sampleInterrupt_raises s
  exact ⟨recs, _, by rw [memStep, hsample]; rfl⟩

theorem memPhase_nop {s : State} (h : s.pipe.mem.instr = 0#32) :
    ∃ recs b, memPhase s = .next ({ s with active := .memory, stall := false }.passed recs b) := by
  cases hb : s.pipe.mem.bubble with
  | true =>
    refine ⟨[], s.intShadow, ?_⟩
    rw [State.passed, raiseMem_nil]
    exact runSlot_bubble hb _
  | false =>
    obtain ⟨recs, b, hpass⟩ := memStep_passes false { s with active := .memory, stall := false }
    exact ⟨recs, b, (runSlot_instr (i := .sll 0 0 0) hb (h ▸ decode_nop) _).trans hpass⟩

/-- A NOP in EX resolves its operands alone. -/
theorem exPhase_nop {s : State} (h : s.pipe.ex.instr = 0#32) :
    ∃ x, x.instr = 0#32 ∧ exPhase s = .next ({ s with active := .execute }.setEx x) := by
  cases hb : s.pipe.ex.bubble with
  | true => exact ⟨s.pipe.ex, h, runSlot_bubble hb _⟩
  | false =>
    refine ⟨_, ?_, (runSlot_instr (i := .sll 0 0 0) hb (h ▸ decode_nop) _).trans
      (exStage_noEffect (resultOf fun a b => b <<< a.toNat) _)⟩
    exact h

/-- ID keeps the word in its slot. -/
theorem idPhase_slot (s : State) : ∃ x k, x.instr = s.pipe.dec.instr ∧
    idPhase s = .next ({ s with active := .decode, loadUseEvents := k }.setDec x) := by
  cases hb : s.pipe.dec.bubble with
  | true => exact ⟨s.pipe.dec, s.loadUseEvents, rfl, runSlot_bubble hb _⟩
  | false =>
    have decoded {d : DecodeOut} {recs : List ExcRecord} (h : idPhase s = decodeStep d recs { s with active := .decode }) :
        ∃ x k, x.instr = s.pipe.dec.instr ∧
          idPhase s = .next ({ s with active := .decode, loadUseEvents := k }.setDec x) :=
      ⟨decodedSnapshot s d recs,
        s.loadUseEvents + loadUse s.pipe (operandA s.pipe d) + loadUse s.pipe (operandB s.pipe d), rfl, h⟩
    cases hd : decode s.pipe.dec.instr with
    | ok i => exact decoded ((runSlot_instr hb hd _).trans (exec_decode i rfl))
    | error r => exact decoded (runSlot_reserved hb hd _)

/-- `s` at the end of a pipeline cycle that has not stalled: every slot of `s` one further, `x` from ID, `f` fetched. -/
def State.shifted (s : State) (k : Nat) (f x : Snapshot) : State :=
  { s with
    active := .decode
    loadUseEvents := k
    pc := s.pc + 4#32
    pipe := { fetch := f, dec := s.pipe.fetch, ex := x, mem := s.pipe.ex, wb := s.pipe.mem } }

theorem Calm.shifted {s : State} (h : Calm s) (k : Nat) (f x : Snapshot) : Calm (s.shifted k f x) :=
  h.congr rfl rfl rfl rfl rfl

/-- The cycle after EX: whatever is decoded and fetched, the slots move on. -/
theorem afterEx_shifts {s : State} (hs : Calm s) (hpc : InKseg1 s.pc) : ∃ k f x, x.instr = s.pipe.dec.instr ∧
    (andThen (idPhase s) fun u => .next (ifPhase (advance u))) = .next (s.shifted k f x) := by
  obtain ⟨x, k, hx, hid⟩ := idPhase_slot s
  obtain ⟨f, hf⟩ := ifPhase_kseg1 (s := advance (State.setDec { s with active := .decode, loadUseEvents := k } x)) hs hpc
  exact ⟨k, f, x, hx, by rw [hid, andThen_next, hf]; rfl⟩

/-- The steps after MEM with a NOP in EX. -/
theorem afterMem_nop {s : State} (hs : Calm s) (hstall : s.stall = false) (hnop : s.pipe.ex.instr = 0#32)
    (hpc : InKseg1 s.pc) : ∃ y k f x, y.instr = 0#32 ∧ x.instr = s.pipe.dec.instr ∧
      afterMem s = .next ((s.setEx y).shifted k f x) := by
  obtain ⟨y, hy, hex⟩ := exPhase_nop hnop
  obtain ⟨k, f, x, hx, hend⟩ := afterEx_shifts (s := { s with active := .execute }.setEx y) hs hpc
  refine ⟨y, k, f, x, hy, hx, ?_⟩
  rw [afterMem, hstall, if_neg Bool.false_ne_true, hex, andThen_next, hend]
  rfl

/-! ### An instruction that computes, set in a run -/

/-- `s` in the run `z`: the fetch register, memory, clock and load-use count are those of `z`, the slots `q`. -/
def State.inRun (s z : State) (q : Pipeline) : State :=
  { s with pc := z.pc, mem := z.mem, cycle := z.cycle, loadUseEvents := z.loadUseEvents, pipe := q }

/-- `s`, its instruction in EX, in the run `z`, whose IF and ID slots are behind it. -/
def State.exIn (s z : State) : State := s.inRun z { s.pipe with fetch := z.pipe.fetch, dec := z.pipe.dec }

/-- `s`, its instruction in MEM, in the run `z`. -/
def State.memIn (s z : State) : State :=
  s.inRun z { s.pipe with fetch := z.pipe.fetch, dec := z.pipe.dec, ex := z.pipe.ex }

/-- `s`, its instruction in WB, in the run `z`. -/
def State.wbIn (s z : State) : State := s.inRun z { z.pipe with wb := s.pipe.wb }

/-- The effect does not look at what `exIn` changes. -/
def RunsInside (effect : Snapshot → State → Out) : Prop :=
  ∀ x u v z, effect x u = .next v → effect x (u.exIn z) = .next (v.exIn z)

theorem exStage_exIn {compute : State → Snapshot → Snapshot} {effect : Snapshot → State → Out} {s t : State}
    (he : RunsInside effect) (z : State) (hc : compute (s.exIn z) (resolved s) = compute s (resolved s))
    (h : exStage compute effect s = .next t) : exStage compute effect (s.exIn z) = .next (t.exIn z) := by
  have hx : compute (s.exIn z) (resolved (s.exIn z)) = compute s (resolved s) := hc
  unfold exStage at h ⊢
  rw [hx]
  by_cases hg : exGuard (s.setEx (compute s (resolved s))) = true
  · exact (if_pos hg).trans (he _ _ _ z ((if_pos hg).symm.trans h))
  · cases (if_neg hg).symm.trans h
    exact if_neg hg

theorem runsInside_divEffect : RunsInside divEffect := by
  intro x u v z h
  unfold divEffect at h ⊢
  split at h <;> cases h
  · exact if_pos ‹_›
  · exact if_neg ‹_›

theorem runsInside_divuEffect : RunsInside divuEffect := by
  intro x u v z h
  unfold divuEffect at h ⊢
  split at h <;> cases h
  · exact if_pos ‹_›
  · exact if_neg ‹_›

theorem runsInside_mfc0Effect (n : Nat) : RunsInside (mfc0Effect n) := by
  intro x u v z h
  have hread : cp0Read (u.exIn z) n = cp0Read u n := rfl
  unfold mfc0Effect at h ⊢
  rw [hread]
  split at h <;> cases h <;> rfl

theorem runsInside_mtc0Effect (n : Nat) : RunsInside (mtc0Effect n) := by
  intro x u v z h
  unfold mtc0Effect cp0Write at h ⊢
  split_ifs at h ⊢ <;> cases h <;> rfl

/-- What an instruction that computes does in EX does not look at what `exIn` changes; in MEM it accesses nothing. -/
theorem exec_computes {i : Instr} (hi : computes i = true) : ∃ compute effect isRfe,
    (∀ s z : State, compute (s.exIn z) (resolved s) = compute s (resolved s)) ∧ RunsInside effect ∧
      (∀ s : State, s.active = .execute → exec i s = exStage compute effect s) ∧
      ∀ s : State, s.active = .memory → exec i s = memStep isRfe noAccess s := by
  cases i
  case jr | jalr | bltz | bgez | bltzal | bgezal | j | jal | beq | bne | blez | bgtz | lb | lh | lwl | lw | lbu | lhu | lwr |
      sb | sh | swl | sw | swr | cache | tlbr | tlbwi | tlbwr | tlbp | cop1 | cop2 | cop3 | lwc1 | lwc2 | lwc3 |
      swc1 | swc2 | swc3 => cases hi
  all_goals
    refine ⟨_, _, _, by intros; rfl, ?_, fun s ha => byStage_execute ha _ _ _ _, fun s ha => byStage_memory ha _ _ _ _⟩
  case div => exact runsInside_divEffect
  case divu => exact runsInside_divuEffect
  case mfc0 => exact runsInside_mfc0Effect _
  case mtc0 => exact runsInside_mtc0Effect _
  all_goals
    intro x u v z e
    cases e
    rfl

/-- In EX an instruction that computes does in a run what it does alone. -/
theorem exec_execute_exIn {i : Instr} (hi : computes i = true) {s t : State} (ha : s.active = .execute)
    (h : exec i s = .next t) (z : State) : exec i (s.exIn z) = .next (t.exIn z) := by
  obtain ⟨compute, effect, -, hcompute, heffect, hexec, -⟩ := exec_computes hi
  rw [hexec s ha] at h
  exact (hexec (s.exIn z) ha).trans (exStage_exIn heffect z (hcompute s z) h)

/-- The sample reads what `memIn` leaves. -/
theorem memStep_memIn (isRfe : Bool) (s : State) : ∃ recs b,
    memStep isRfe noAccess s = .next (s.passed recs b) ∧
      ∀ z, memStep isRfe noAccess (s.memIn z) = .next ((s.passed recs b).memIn z) := by
  by_cases hint : (!s.intShadow && !s.pipe.mem.exSideEffect && !s.pipe.mem.memIssued && intCond s) = true
  · have hs : sampleInterrupt s = s.raiseMem [{ kind := .int, mode := .any }] := if_pos hint
    have hz (z : State) : sampleInterrupt (s.memIn z) = (s.raiseMem [{ kind := .int, mode := .any }]).memIn z := if_pos hint
    exact ⟨_, _, by rw [memStep, hs]; rfl, fun z => by rw [memStep, hz]; rfl⟩
  · have hs : sampleInterrupt s = s.raiseMem [] := (if_neg hint).trans (raiseMem_nil s).symm
    have hz (z : State) : sampleInterrupt (s.memIn z) = (s.raiseMem []).memIn z :=
      (if_neg hint).trans (by rw [raiseMem_nil])
    exact ⟨_, _, by rw [memStep, hs]; rfl, fun z => by rw [memStep, hz]; rfl⟩

/-- In MEM it does not stall and does in a run what it does alone. -/
theorem exec_memory_memIn {i : Instr} (hi : computes i = true) {s t : State} (ha : s.active = .memory)
    (h : exec i s = .next t) : (∃ recs b, t = s.passed recs b) ∧ ∀ z, exec i (s.memIn z) = .next (t.memIn z) := by
  obtain ⟨-, -, isRfe, -, -, -, hexec⟩ := exec_computes hi
  obtain ⟨recs, b, hs, hz⟩ := memStep_memIn isRfe s
  cases h.symm.trans ((hexec s ha).trans hs)
  exact ⟨⟨recs, b, rfl⟩, fun z => (hexec (s.memIn z) ha).trans (hz z)⟩

theorem wbStage_stall {s t : State} (h : wbStage s = .next t) : t.stall = s.stall := by
  rcases wbStage_cases s with ⟨r, -, e⟩ | ⟨-, e⟩ <;> cases h.symm.trans e
  · exact takeException_stall s s.pipe.wb.pc r
  · exact commit_stall s s.pipe.wb

/-- Alone, an instruction that computes does not stall. -/
theorem runsTo_computes_stall {i : Instr} (hi : computes i = true) {s t : State} {p : Word} (h : runsTo i s p t) :
    t.stall = false := by
  obtain ⟨b, c, -, hmem, hend⟩ := runsTo_stages h
  obtain ⟨⟨recs, a, hc⟩, -⟩ := exec_memory_memIn hi rfl hmem
  have hstall : c.stall = false := congrArg State.stall hc
  rcases hend with rfl | hwb
  · exact hstall
  · exact (wbStage_stall hwb).trans hstall

theorem commit_wbIn (s z : State) (x : Snapshot) : commit (s.wbIn z) x = (commit s x).wbIn z := by
  unfold commit writeGpr
  split
  · split <;> rfl
  · rfl

theorem Calm.commit {s : State} (h : Calm s) (x : Snapshot) : Calm (commit s x) := by
  refine h.congr (commit_cfg s x) (commit_env s x) (commit_icache s x) (commit_dcache s x) ((commit_halted s x).trans ?_)
  obtain ⟨hcfg, -⟩ := h
  rw [haltsAt, hcfg]
  exact Bool.or_false _

/-! ### The loaded instruction -/

/-- The machine right after reset with other values in the registers that the spec leaves open (R36). -/
def resetWith (g : Vector Word 32) (hi lo : Word) : State := { State.reset with gpr := g, hi := hi, lo := lo }

/-- The memory of a run from reset with the word `w` loaded at RESET_PC's physical address. -/
def bootMemory (w : Word) : Memory := Memory.writeBytes [] 0x1FC00000#32 (bytesOfWord .big w)

theorem bootMemory_first (w : Word) : (bootMemory w).readBytes 0x1FC00000#32 4 = bytesOfWord .big w :=
  Memory.readBytes_writeBytes [] 0x1FC00000#32 (bytesOfWord .big w) (by simp [bytesOfWord])

/-- Behind the loaded word memory reads as NOP words (log entry 7). -/
theorem bootMemory_behind (w : Word) : (bootMemory w).readBytes 0x1FC00004#32 4 = bytesOfWord .big 0#32 ∧
    (bootMemory w).readBytes 0x1FC00008#32 4 = bytesOfWord .big 0#32 := by
  have unlisted {a : Nat} (h : ∀ n < 4, a ≠ (0x1FC00000#32 + BitVec.ofNat 32 n).toNat) : (bootMemory w).read a = 0#8 :=
    Memory.read_writeBytes_outside [] 0x1FC00000#32 (bytesOfWord .big w) h
  constructor <;> simp only [Memory.readBytes] <;>
    rw [unlisted (by decide), unlisted (by decide), unlisted (by decide), unlisted (by decide)] <;> rfl

/-- The fetch of a word of the boot range, SR as at reset. -/
theorem ifPhase_boot {t : State} {va pa w : Word} (hcfg : t.cfg = Config.params) (hsr : t.sr = 0x00400000#32)
    (hpc : t.pc = va) (hva : va.toNat % 4 = 0) (hr : reaches State.reset va .fetch pa false) (hpa : aligned pa .word = true)
    (hw : t.mem.readBytes pa 4 = bytesOfWord .big w) :
    ifPhase t = fillFetch t { pc := va, instr := w, bubble := false } := by
  subst hpc
  refine ifPhase_memory hva (reaches_congr hcfg hsr hr) hpa ?_ ?_ <;> rw [hcfg]
  · exact isDevice_params pa
  · exact hw

theorem patchLine_miss {s : State} {pa : Word} (h : lookup s .icache pa = none) (w : Word) : patchLine s pa w = s := by
  rw [patchLine, h]

section
variable (g : Vector Word 32) (hi lo : Word)

/-- The load of a word after reset writes memory alone (log entry 8). -/
theorem withFetchWord_resetWith (w : Word) :
    (resetWith g hi lo).withFetchWord 32 w.toNat = { resetWith g hi lo with mem := bootMemory w } := by
  have hw : BitVec.ofNat 32 (w.toNat % 2 ^ 32) = w := by rw [Nat.mod_eq_of_lt w.isLt, BitVec.ofNat_toNat, BitVec.setWidth_eq]
  have hpa : fetchAddress (resetWith g hi lo) = 0x1FC00000#32 :=
    congrArg (fun a => a.pa.getD 0xBFC00000#32) (segmentMap_kseg1 (va := 0xBFC00000#32) (by decide) (by decide) _ _ _)
  rw [State.withFetchWord, hw, loadFetchWord, hpa]
  have hmiss : lookup { resetWith g hi lo with mem := bootMemory w } .icache 0x1FC00000#32 = none :=
    lookup_resetOf Config.params .icache 0x1FC00000#32
  exact patchLine_miss hmiss w

/-- From reset a step runs its cycles. -/
theorem step_resetWith (w : Word) : step { resetWith g hi lo with mem := bootMemory w } =
    runCycles 64 { resetWith g hi lo with mem := bootMemory w } :=
  step_runs rfl (show Config.params.wellFormed = true by decide) (arraysInBounds_resetOf Config.params)

end

/-! ### The cycles -/

/-- With nothing in WB and MEM a cycle begins with EX. -/
theorem pipelineCycle_front {s : State} (hwb : s.pipe.wb.bubble = true) (hmem : s.pipe.mem.bubble = true) :
    pipelineCycle s = afterMem { s with active := .memory, stall := false } := by
  rw [pipelineCycle, wbPhase, runSlot_bubble hwb, andThen_next, memPhase, runSlot_bubble hmem, andThen_next]

/-- The word `w` just fetched from `va`. -/
def fetchedSnapshot (va w : Word) : Snapshot := { pc := va, instr := w, bubble := false }

section
variable (g : Vector Word 32) (hi lo : Word)

theorem calm_resetWith : Calm (resetWith g hi lo) := ⟨rfl, rfl, rfl, rfl, rfl⟩

/-- A cycle that fills the empty pipeline: `x` leaves ID, the word `w` is fetched from `va`. -/
theorem runCycles_fills {z : State} {f d x : Snapshot} {k : Nat} {va pa w : Word} (hpc : z.pc = va) (hva : va.toNat % 4 = 0)
    (hr : reaches State.reset va .fetch pa false) (hpa : aligned pa .word = true)
    {m : Memory} (hm : z.mem = m) (hw : m.readBytes pa 4 = bytesOfWord .big w)
    (hid : idPhase ((resetWith g hi lo).inRun z { fetch := f, dec := d }) =
      .next (State.setDec { (resetWith g hi lo).inRun z { fetch := f, dec := d } with
        active := .decode, loadUseEvents := k } x)) :
    ∃ z', (∀ n, runCycles (n + 1) ((resetWith g hi lo).inRun z { fetch := f, dec := d }) =
        runCycles n ((resetWith g hi lo).inRun z' { fetch := fetchedSnapshot va w, dec := f, ex := x })) ∧
      z'.pc = va + 4#32 ∧ z'.mem = m := by
  let s : State := (resetWith g hi lo).inRun z { fetch := f, dec := d }
  have hif := ifPhase_boot (t := advance (State.setDec { s with active := .decode, loadUseEvents := k } x)) rfl rfl hpc
    hva hr hpa (hm ▸ hw)
  have hcycle : pipelineCycle s = .next (s.shifted k (fetchedSnapshot va w) x) := by
    rw [pipelineCycle_front rfl rfl, afterMem, if_neg Bool.false_ne_true, exPhase, runSlot_bubble rfl, andThen_next]
    refine (congrArg (andThen · _) hid).trans ?_
    rw [andThen_next, hif]
    rfl
  refine ⟨tick (s.shifted k (fetchedSnapshot va w) x), ?_, congrArg (· + 4#32) hpc, hm⟩
  have calm : Calm s := calm_resetWith g hi lo
  exact runCycles_calm rfl (cycle_calm hcycle calm calm) calm

end

/-- ID of the first instruction, whatever is fetched behind it. -/
theorem idPhase_first {i : Instr} (hi : i.wellFormed = true) {s u : State} {p : Word} {f : Snapshot} (hsr : u.sr = s.sr)
    (hu : u.pipe = { fetch := f, dec := fetchedSnapshot p (encode i) }) :
    ∃ k, idPhase u = .next (State.setDec { u with active := .decode, loadUseEvents := k } (checked i s p)) := by
  obtain ⟨a, ha, hx⟩ := decodeStep_alone (decodeOut i) (copCheck s (copNeeded i)) s p (encode i)
  cases ha
  have hcop : copCheck u (copNeeded i) = copCheck s (copNeeded i) := by
    cases copNeeded i with
    | none => rfl
    | some z => simp [copCheck, copAllowed, State.userMode, State.copUsable, hsr]
  have hslot : decodedSnapshot u (decodeOut i) (copCheck u (copNeeded i)) = checked i s p := by
    rw [hcop, decodedSnapshot, hu]
    exact congrArg (·.pipe.ex) hx
  have hd : u.pipe.dec = fetchedSnapshot p (encode i) := by rw [hu]
  refine ⟨u.loadUseEvents + loadUse u.pipe (operandA u.pipe (decodeOut i)) +
    loadUse u.pipe (operandB u.pipe (decodeOut i)), ?_⟩
  rw [← hslot, idPhase]
  exact (runSlot_instr (by rw [hd]; rfl) (by rw [hd]; exact roundTrip i hi) _).trans (exec_decode i rfl)

theorem checked_instr (i : Instr) (s : State) (p : Word) : (checked i s p).instr = encode i := rfl

theorem checked_bubble (i : Instr) (s : State) (p : Word) : (checked i s p).bubble = false := rfl

/-- The run behind the loaded instruction as it reaches EX: NOPs in ID and IF, the fourth word fetched next. -/
def NopsBehind (z : State) : Prop := z.pc = 0xBFC0000C#32 ∧ z.pipe.dec.instr = 0#32 ∧ z.pipe.fetch.instr = 0#32

/-- Three cycles bring the loaded instruction to EX, NOPs behind it. -/
theorem runCycles_toEx {i : Instr} (hi : i.wellFormed = true) (g : Vector Word 32) (hi' lo : Word) : ∃ z,
    (∀ n, runCycles (n + 3) { resetWith g hi' lo with mem := bootMemory (encode i) } =
      runCycles n { (atEx (resetWith g hi' lo) (checked i (resetWith g hi' lo) 0xBFC00000#32)).exIn z with
        active := .writeback }) ∧
    NopsBehind z := by
  obtain ⟨hw4, hw8⟩ := bootMemory_behind (encode i)
  obtain ⟨z1, h1, hpc1, hmem1⟩ := runCycles_fills g hi' lo (f := {}) (d := {}) (x := {}) (k := 0)
    (z := { resetWith g hi' lo with mem := bootMemory (encode i) }) (va := 0xBFC00000#32) (pa := 0x1FC00000#32) rfl
    (by decide) (by unfold reaches; decide) (by decide) rfl (bootMemory_first (encode i)) rfl
  obtain ⟨z2, h2, hpc2, hmem2⟩ := runCycles_fills g hi' lo (d := {}) (x := {}) (k := z1.loadUseEvents)
    (va := 0xBFC00004#32) (pa := 0x1FC00004#32) hpc1 (by decide) (by unfold reaches; decide) (by decide) hmem1 hw4 rfl
  obtain ⟨k, hid⟩ := idPhase_first hi (s := resetWith g hi' lo) (p := 0xBFC00000#32)
    (u := (resetWith g hi' lo).inRun z2
      { fetch := fetchedSnapshot 0xBFC00004#32 0#32, dec := fetchedSnapshot 0xBFC00000#32 (encode i) }) rfl rfl
  obtain ⟨z3, h3, hpc3, -⟩ := runCycles_fills g hi' lo (va := 0xBFC00008#32) (pa := 0x1FC00008#32) hpc2 (by decide)
    (by unfold reaches; decide) (by decide) hmem2 hw8 hid
  let slots : Pipeline := { fetch := fetchedSnapshot 0xBFC00008#32 0#32, dec := fetchedSnapshot 0xBFC00004#32 0#32 }
  exact ⟨{ z3 with pipe := slots }, fun n => (h1 (n + 2)).trans ((h2 (n + 1)).trans (h3 n)), ⟨hpc3, rfl, rfl⟩⟩

/-- The run `z` after a cycle behind the instruction: `y` from EX, `x` from ID, `f` fetched. -/
def State.ticked (z : State) (k : Nat) (f x y : Snapshot) : State :=
  { z with
    pc := z.pc + 4#32
    cycle := z.cycle + 1
    loadUseEvents := k
    pipe := { fetch := f, dec := z.pipe.fetch, ex := x, mem := y } }

theorem tick_shifted_exIn (b z : State) (k : Nat) (f x : Snapshot) : tick ((b.exIn z).shifted k f x) =
    { (enterMem b).memIn (z.ticked k f x {}) with active := .writeback, stall := b.stall } := rfl

theorem tick_shifted_memIn (c z : State) (k : Nat) (f x y : Snapshot) : tick (((c.memIn z).setEx y).shifted k f x) =
    State.wbIn { advance c with active := .writeback } (z.ticked k f x y) := rfl

/-- EX of the instruction, in the run as alone; ID and IF behind it. -/
theorem cycle_atEx {i : Instr} (hc : computes i = true) {s b z : State} {x : Snapshot} (hrest : s.stall = false)
    (hs : Calm s) (hbubble : x.bubble = false) (hi : decode x.instr = .ok i) (hex : exec i (atEx s x) = .next b)
    (hpc : InKseg1 z.pc) (hdec : z.pipe.dec.instr = 0#32) : ∃ z',
      cycle { (atEx s x).exIn z with active := .writeback } =
        .next { (enterMem b).memIn z' with active := .writeback, stall := b.stall } ∧
      z'.pc = z.pc + 4#32 ∧ z'.pipe.ex.instr = 0#32 ∧ z'.pipe.dec = z.pipe.fetch := by
  have f := exec_execute_frame i rfl hex
  have hb : Calm b := hs.congr f.cfg f.env f.icache f.dcache f.halted
  obtain ⟨k, d, y, hy, hend⟩ := afterEx_shifts (s := b.exIn z) (hb.congr rfl rfl rfl rfl rfl) hpc
  have hslot : exPhase { (atEx s x).exIn z with active := .memory, stall := false } = .next (b.exIn z) := by
    rw [exPhase_of_eq (congrArg (fun q => { (atEx s x).exIn z with stall := q }) hrest.symm)]
    exact (runSlot_instr hbubble hi _).trans (exec_execute_exIn hc rfl hex z)
  have hcycle : pipelineCycle { (atEx s x).exIn z with active := .writeback } = .next ((b.exIn z).shifted k d y) := by
    rw [pipelineCycle_front rfl rfl, afterMem, if_neg Bool.false_ne_true]
    exact (congrArg (andThen · _) hslot).trans hend
  have hnext := cycle_calm hcycle (hs.congr rfl rfl rfl rfl rfl) (Calm.shifted (hb.congr rfl rfl rfl rfl rfl) k d y)
  rw [tick_shifted_exIn] at hnext
  exact ⟨z.ticked k d y {}, hnext, rfl, hy.trans hdec, rfl⟩

/-- MEM of the instruction, in the run as alone; a NOP is in EX behind it. -/
theorem cycle_inMem {i : Instr} (hc : computes i = true) {b c z : State} (hb : Calm b) (hbubble : b.pipe.ex.bubble = false)
    (hi : decode b.pipe.ex.instr = .ok i) (hwb : b.pipe.mem.bubble = true) (hexec : exec i (enterMem b) = .next c)
    (hpc : InKseg1 z.pc) (hex : z.pipe.ex.instr = 0#32) (q : Bool) : ∃ z',
      cycle { (enterMem b).memIn z with active := .writeback, stall := q } =
        .next (State.wbIn { advance c with active := .writeback } z') ∧
      z'.pc = z.pc + 4#32 ∧ z'.pipe.mem.instr = 0#32 ∧ z'.pipe.ex.instr = z.pipe.dec.instr := by
  obtain ⟨⟨recs, a, hpassed⟩, hrun⟩ := exec_memory_memIn hc rfl hexec
  have hstall : c.stall = false := congrArg State.stall hpassed
  have hcalm : Calm c := hpassed ▸ hb.congr rfl rfl rfl rfl rfl
  obtain ⟨y, k, d, x, hy, hx, hend⟩ := afterMem_nop (s := c.memIn z) (hcalm.congr rfl rfl rfl rfl rfl) hstall hex hpc
  have hslot : memPhase { (enterMem b).memIn z with active := .writeback, stall := q } = .next (c.memIn z) :=
    (runSlot_instr hbubble hi _).trans (hrun z)
  have hcycle : pipelineCycle { (enterMem b).memIn z with active := .writeback, stall := q } =
      .next (((c.memIn z).setEx y).shifted k d x) := by
    rw [pipelineCycle, wbPhase]
    exact (congrArg (andThen · _) (runSlot_bubble hwb _)).trans ((congrArg (andThen · _) hslot).trans hend)
  have hnext := cycle_calm hcycle (hb.congr rfl rfl rfl rfl rfl) (Calm.shifted (hcalm.congr rfl rfl rfl rfl rfl) k d x)
  rw [tick_shifted_memIn] at hnext
  exact ⟨z.ticked k d x y, hnext, rfl, hy, hx⟩

/-- The registers that a program sees. -/
def SameRegisters (s t : State) : Prop :=
  t.gpr = s.gpr ∧ t.hi = s.hi ∧ t.lo = s.lo ∧ t.sr = s.sr ∧ t.cause = s.cause ∧ t.epc = s.epc ∧
    t.badVAddr = s.badVAddr

theorem SameRegisters.trans {s t u : State} (h : SameRegisters s t) (h' : SameRegisters t u) : SameRegisters s u := by
  obtain ⟨hgpr, hhi, hlo, hsr, hcause, hepc, hbad⟩ := h
  obtain ⟨hgpr', hhi', hlo', hsr', hcause', hepc', hbad'⟩ := h'
  exact ⟨hgpr'.trans hgpr, hhi'.trans hhi, hlo'.trans hlo, hsr'.trans hsr, hcause'.trans hcause, hepc'.trans hepc,
    hbad'.trans hbad⟩

/-- WB in the run leaves the registers it leaves alone; it enters the handler, or the slots stay. -/
theorem wbStage_wbIn {s u : State} (hs : Calm s) (z : State) (h : wbStage s = .next u) :
    ∃ t, wbStage (s.wbIn z) = .next t ∧ SameRegisters u t ∧ Calm t ∧
      ((∃ r, selectRecord s.pipe.wb.exc = some r ∧ t.pipe = {} ∧ t.pc = vector s.bootVectors r) ∨
        t.pipe = (s.wbIn z).pipe ∧ t.pc = z.pc) := by
  have hwb : (s.wbIn z).pipe.wb = s.pipe.wb := rfl
  unfold wbStage at h ⊢
  rw [hwb]
  split at h <;> cases h
  · rename_i r hr
    exact ⟨_, rfl, ⟨rfl, rfl, rfl, rfl, rfl, rfl, rfl⟩, hs.congr rfl rfl rfl rfl rfl, .inl ⟨r, hr, rfl, rfl⟩⟩
  · rw [commit_wbIn]
    exact ⟨_, rfl, ⟨rfl, rfl, rfl, rfl, rfl, rfl, rfl⟩, (hs.commit _).congr rfl rfl rfl rfl rfl,
      .inr ⟨congrArg (fun q : Pipeline => { z.pipe with wb := q.wb }) (commit_pipe s s.pipe.wb), rfl⟩⟩

/-- The cycle in which WB leaves `a`: the NOPs behind it change no register. -/
theorem cycle_last {s a : State} (hwb : wbPhase s = .next a) (hs : Calm s) (ha : Calm a) (hmem : a.pipe.mem.instr = 0#32)
    (hex : a.pipe.ex.instr = 0#32) (hpc : InKseg1 a.pc) : ∃ t, cycle s = .next t ∧ SameRegisters a t := by
  obtain ⟨recs, b, hm⟩ := memPhase_nop hmem
  obtain ⟨y, k, f, x, -, -, hend⟩ :=
    afterMem_nop (s := State.passed { a with active := .memory, stall := false } recs b)
      (ha.congr rfl rfl rfl rfl rfl) rfl hex hpc
  have hcycle : pipelineCycle s =
      .next (((State.passed { a with active := .memory, stall := false } recs b).setEx y).shifted k f x) := by
    rw [pipelineCycle, hwb, andThen_next, hm, andThen_next, hend]
  refine ⟨_, cycle_calm hcycle hs (Calm.shifted (ha.congr rfl rfl rfl rfl rfl) k f x), ?_⟩
  simp only [SameRegisters, tick, State.shifted, State.setEx, State.passed, State.raiseMem, State.setMem, and_self]

/-- WB of the instruction, in the run as alone. -/
theorem cycle_inWb {i : Instr} {s u z : State} (hs : Calm s) (hbubble : s.pipe.wb.bubble = false)
    (hi : decode s.pipe.wb.instr = .ok i) (ha : s.active = .writeback) (h : wbStage s = .next u)
    (hmem : z.pipe.mem.instr = 0#32) (hex : z.pipe.ex.instr = 0#32) (hpc : InKseg1 z.pc)
    (hvector : ∀ r, selectRecord s.pipe.wb.exc = some r → InKseg1 (vector s.bootVectors r)) :
    ∃ t, cycle (s.wbIn z) = .next t ∧ SameRegisters u t := by
  obtain ⟨a, hwb, hsame, hcalm, hpos⟩ := wbStage_wbIn hs z h
  have hactive : { s.wbIn z with active := .writeback } = s.wbIn z :=
    congrArg (fun b => { s.wbIn z with active := b }) ha.symm
  have hphase : wbPhase (s.wbIn z) = .next a := by
    rw [wbPhase, hactive]
    exact (runSlot_instr hbubble hi _).trans ((exec_writeback i (s := s.wbIn z) ha).trans hwb)
  obtain ⟨hmem, hex, hpc⟩ : a.pipe.mem.instr = 0#32 ∧ a.pipe.ex.instr = 0#32 ∧ InKseg1 a.pc := by
    rcases hpos with ⟨r, hr, hp, hv⟩ | ⟨hp, hv⟩ <;> rw [hp, hv]
    · exact ⟨rfl, rfl, hvector r hr⟩
    · exact ⟨hmem, hex, hpc⟩
  obtain ⟨t, hcycle, hlast⟩ := cycle_last hphase (hs.congr rfl rfl rfl rfl rfl) hcalm hmem hex hpc
  exact ⟨t, hcycle, hsame.trans hlast⟩

/-- The last three cycles of an instruction, the run as alone. -/
theorem runCycles_fromEx {i : Instr} (hcomp : computes i = true) {s b c u z : State} {x : Snapshot} (hrest : s.stall = false)
    (hs : Calm s) (hbubble : x.bubble = false) (hi : decode x.instr = .ok i) (hex : exec i (atEx s x) = .next b)
    (hmem : exec i (enterMem b) = .next c) (hwb : wbStage { advance c with active := .writeback } = .next u)
    (hz : NopsBehind z) (n : Nat)
    (hvector : ∀ r, selectRecord c.pipe.mem.exc = some r → InKseg1 (vector c.bootVectors r)) :
    ∃ t, runCycles (n + 3) { (atEx s x).exIn z with active := .writeback } = .next t ∧ SameRegisters u t := by
  obtain ⟨hpc, hdec, hfetch⟩ := hz
  have f := exec_execute_frame i rfl hex
  obtain ⟨-, hinstr, hslot, -, -⟩ := f.slotEx
  have hb : Calm b := hs.congr f.cfg f.env f.icache f.dcache f.halted
  have hslot : b.pipe.ex.bubble = false := hslot.trans hbubble
  have hdecode : decode b.pipe.ex.instr = .ok i := hinstr ▸ hi
  have hbehind : b.pipe.mem.bubble = true := congrArg Snapshot.bubble f.slotMem
  obtain ⟨⟨recs, q, hc⟩, -⟩ := exec_memory_memIn hcomp rfl hmem
  obtain ⟨hcalm, hcbubble, hcdecode⟩ :
      Calm c ∧ c.pipe.mem.bubble = false ∧ decode c.pipe.mem.instr = .ok i := by
    rw [hc]
    exact ⟨hb.congr rfl rfl rfl rfl rfl, hslot, hdecode⟩
  obtain ⟨z1, hcycle1, hpc1, hex1, hdec1⟩ := cycle_atEx hcomp hrest hs hbubble hi hex
    (show InKseg1 z.pc by rw [hpc]; exact ⟨by decide, by decide⟩) hdec
  obtain ⟨z2, hcycle2, hpc2, hmem2, hex2⟩ := cycle_inMem hcomp hb hslot hdecode hbehind hmem
    (show InKseg1 z1.pc by rw [hpc1, hpc]; exact ⟨by decide, by decide⟩) hex1 b.stall
  obtain ⟨t, hcycle3, hsame⟩ := cycle_inWb (s := { advance c with active := .writeback })
    (hcalm.congr rfl rfl rfl rfl rfl) hcbubble hcdecode rfl hwb hmem2
    (hex2.trans ((congrArg Snapshot.instr hdec1).trans hfetch))
    (show InKseg1 z2.pc by rw [hpc2, hpc1, hpc]; exact ⟨by decide, by decide⟩) hvector
  refine ⟨t, ?_, hsame⟩
  rw [runCycles_calm rfl hcycle1 (hb.congr rfl rfl rfl rfl rfl),
    runCycles_calm hbehind hcycle2 (hcalm.congr rfl rfl rfl rfl rfl)]
  exact (runCycles_busy hcbubble n).trans hcycle3

/-- Settles O54: the run from reset is followed cycle by cycle, each stage of the instruction doing what it does alone. -/
theorem firstInstructionRuns : Obligations.FirstInstructionRuns := by
  intro g hi lo i hwf hcomp s u hrun
  have hs : s = resetWith g hi lo := rfl
  clear_value s
  obtain ⟨b, c, hex, hmem, hstall, hwb⟩ := runsTo_unstalled hrun (runsTo_computes_stall hcomp hrun)
  obtain ⟨z, hfill, hz⟩ := runCycles_toEx hwf g hi lo
  have hvector (r : ExcRecord) (hr : selectRecord c.pipe.mem.exc = some r) : InKseg1 (vector c.bootVectors r) := by
    obtain ⟨-, -, -, -, hv, -⟩ := tookException_of_record hex hmem hstall hr
    have hboot : s.bootVectors = true := by
      rw [hs]
      exact show (0x00400000#32).getLsbD 22 = true by decide
    rw [takeException_pc, hboot] at hv
    have hv : vector c.bootVectors r = vector true r := hv
    rw [hv]
    exact vector_boot_kseg1 r
  obtain ⟨t, hend, hgpr, hhi, hlo, hsr, hcause, hepc, hbad⟩ := 
    runCycles_fromEx hcomp (hs ▸ rfl) (hs ▸ calm_resetWith g hi lo) (checked_bubble i s _)
      (checked_instr i s _ ▸ roundTrip i hwf) hex hmem hwb hz 58 hvector
  refine ⟨t, ?_, hgpr, hhi, hlo, hsr, hcause, hepc, hbad⟩
  rw [hs, withFetchWord_resetWith, step_resetWith, hfill 61, ← hs]
  exact hend

end Sys2Proof.Machine
end
